-- ==== Sys2Proof/Word.lean ====
section
/-! DEFINITION. The data types of the spec's notation (00_scope.md R8): bytes, command words, key-input
elements, the 16-byte block, the four-byte schedule word and the eleven round keys. A block is an indexed
sequence of bytes, never an integer (20_memory.md R41). -/

namespace Sys2Proof

/-- A byte, 0..255, bit 0 least significant (R8). -/
abbrev Byte := BitVec 8

/-- A command word, `CMD_W` = 16 bits (R6, R60). -/
abbrev CmdWord := BitVec 16

/-- One element of `KEYIN`, held in 21 bits (10_state.md R16). -/
abbrev Elem := BitVec 21

/-- A length or size register of `LEN_W` bits at its default width (R6, R23). -/
abbrev Len := BitVec 64

/-- A block: 16 bytes, index 0 first (R6 `BLOCK`). -/
abbrev Block := Vector Byte 16

/-- A key-schedule word `[b0, b1, b2, b3]`: four bytes, not an integer (42_key_schedule.md R110). -/
abbrev KeyWord := Vector Byte 4

/-- Eleven round keys of 16 bytes (10_state.md R15). -/
abbrev RoundKeys := Vector Block 11

/-- `[0x00] * 16`. -/
def zeroBlock : Block := Vector.replicate 16 0x00#8

/-- Eleven zero round keys (the reset value of `RK`, R27). -/
def zeroRoundKeys : RoundKeys := Vector.replicate 11 zeroBlock

end Sys2Proof
end

