-- ==== Sys2Proof/Syntax.lean ====
section
/-! DEFINITION. The 22 commands of 30_encoding.md R62, one constructor per row of spec/opcode_table.json. -/

namespace Sys2Proof

/-- A command. The one operand of the command set is ADDRK's round-key index, a 4-bit unsigned field (R61);
every other operand is implicit. -/
inductive Instr where
  | gfmul
  | subb
  | shrow
  | mixc
  | addrk (rnd : BitVec 4)
  | isubb
  | ishrow
  | imixc
  | keyexp
  | keyld
  | pad
  | unpad
  | encb
  | decb
  | ecbe
  | ecbd
  | b64e
  | b64d
  | encf
  | decf
  | otoi
  | rst
  deriving DecidableEq, Repr

end Sys2Proof
end

