-- ==== Sys2Proof/WellFormed.lean ====
section
/-! DEFINITION. Which terms of Instr are commands of this hardware (30_encoding.md R61, R64). -/

namespace Sys2Proof

/-- `rnd` is 0..10, "the indices of the 11 round keys" (R61). -/
def rndLegal (rnd : BitVec 4) : Bool := decide (rnd.toNat ≤ 10)

/-- The one check: ADDRK's index names a round key. The other commands have no operand to check. -/
def Instr.wellFormed : Instr → Bool
  | .addrk rnd => rndLegal rnd
  | .gfmul => true
  | .subb => true
  | .shrow => true
  | .mixc => true
  | .isubb => true
  | .ishrow => true
  | .imixc => true
  | .keyexp => true
  | .keyld => true
  | .pad => true
  | .unpad => true
  | .encb => true
  | .decb => true
  | .ecbe => true
  | .ecbd => true
  | .b64e => true
  | .b64d => true
  | .encf => true
  | .decf => true
  | .otoi => true
  | .rst => true

end Sys2Proof
end

