-- ==== Sys2Proof/Decode.lean ====
section
/-! DEFINITION. The decoder (30_encoding.md R60 to R64), total on all 65536 words and rejecting by name, and
after it the encoder, written from the Match column of R62. -/

namespace Sys2Proof

/-- Why a word selects no row of R62: the four ways a word is illegal (R64; DESIGN CHOICE, log 21). -/
inductive DecodeError where
  /-- "any word with `c[15:12] != 0`" -/
  | highBitsNotZero
  /-- "any word whose `op` is not one of the 22 opcodes" -/
  | unknownOpcode
  /-- "any format-N opcode with `c[11:8] != 0`" -/
  | operandOnFormatN
  /-- "ADDRK with `rnd` in 11..15" -/
  | roundIndexTooLarge
  deriving DecidableEq, Repr

/-- `op = c[7:0]` (R60). -/
def opField (c : CmdWord) : BitVec 8 := c.extractLsb' 0 8

/-- `rnd = c[11:8]` (R60, R61). -/
def rndField (c : CmdWord) : BitVec 4 := c.extractLsb' 8 4

/-- `hi = c[15:12]`, zero in every legal command (R60). -/
def highField (c : CmdWord) : BitVec 4 := c.extractLsb' 12 4

/-- The 21 format-N rows of the opcode map (R62). -/
def formatN (op : BitVec 8) : Option Instr :=
  match op with
  | 0x01#8 => some .gfmul
  | 0x10#8 => some .subb
  | 0x11#8 => some .shrow
  | 0x12#8 => some .mixc
  | 0x14#8 => some .isubb
  | 0x15#8 => some .ishrow
  | 0x16#8 => some .imixc
  | 0x20#8 => some .keyexp
  | 0x21#8 => some .keyld
  | 0x30#8 => some .pad
  | 0x31#8 => some .unpad
  | 0x40#8 => some .encb
  | 0x41#8 => some .decb
  | 0x42#8 => some .ecbe
  | 0x43#8 => some .ecbd
  | 0x50#8 => some .b64e
  | 0x51#8 => some .b64d
  | 0x60#8 => some .encf
  | 0x61#8 => some .decf
  | 0x70#8 => some .otoi
  | 0x7F#8 => some .rst
  | _ => none

/-- The opcode of the one format-R command, ADDRK (R60, R62). -/
def addrkOp : BitVec 8 := 0x13#8

/-- The command a word selects, or why it selects none (R62, R64). -/
def decode (c : CmdWord) : Except DecodeError Instr :=
  if highField c ≠ 0 then .error .highBitsNotZero
  else if opField c = addrkOp then
    if rndLegal (rndField c) then .ok (.addrk (rndField c)) else .error .roundIndexTooLarge
  else match formatN (opField c) with
    | none => .error .unknownOpcode
    | some i => if rndField c = 0 then .ok i else .error .operandOnFormatN

/-- The host's reading of a table word: `nbits` bits, bit 0 the least significant bit of the one word. A command
is one 16-bit word delivered whole by one write (R65), so there is no byte order to undo. -/
def decodeTableWord (nbits w : Nat) : Option Instr :=
  let v := w % 2 ^ nbits
  if v < 2 ^ 16 then
    match decode (BitVec.ofNat 16 v) with
    | .ok i => some i
    | .error _ => none
  else none

/-- The Match value of the command's row of R62, with `rnd << 8` added for ADDRK (R66). -/
def encode : Instr → CmdWord
  | .gfmul => 0x0001#16
  | .subb => 0x0010#16
  | .shrow => 0x0011#16
  | .mixc => 0x0012#16
  | .addrk rnd => 0x0013#16 + (rnd.setWidth 16 <<< 8)
  | .isubb => 0x0014#16
  | .ishrow => 0x0015#16
  | .imixc => 0x0016#16
  | .keyexp => 0x0020#16
  | .keyld => 0x0021#16
  | .pad => 0x0030#16
  | .unpad => 0x0031#16
  | .encb => 0x0040#16
  | .decb => 0x0041#16
  | .ecbe => 0x0042#16
  | .ecbd => 0x0043#16
  | .b64e => 0x0050#16
  | .b64d => 0x0051#16
  | .encf => 0x0060#16
  | .decf => 0x0061#16
  | .otoi => 0x0070#16
  | .rst => 0x007F#16

/-- The mnemonic of the command's row of R62. -/
def Instr.mnemonic : Instr → String
  | .gfmul => "GFMUL"
  | .subb => "SUBB"
  | .shrow => "SHROW"
  | .mixc => "MIXC"
  | .addrk _ => "ADDRK"
  | .isubb => "ISUBB"
  | .ishrow => "ISHROW"
  | .imixc => "IMIXC"
  | .keyexp => "KEYEXP"
  | .keyld => "KEYLD"
  | .pad => "PAD"
  | .unpad => "UNPAD"
  | .encb => "ENCB"
  | .decb => "DECB"
  | .ecbe => "ECBE"
  | .ecbd => "ECBD"
  | .b64e => "B64E"
  | .b64d => "B64D"
  | .encf => "ENCF"
  | .decf => "DECF"
  | .otoi => "OTOI"
  | .rst => "RST"

end Sys2Proof
end

