-- ==== Sys2Proof/Config.lean ====
section
/-! DEFINITION. What the implementation fixes (00_scope.md R6, 92_eei_decisions.md "Open parameters"): the
capacities and widths at the spec's own defaults, and the algorithm tag, which has no value in the spec and so
has none here. -/

namespace Sys2Proof

/-- `ALG_TAG`, the constant that register ALGID reads (10_state.md R22, D14). The spec gives neither its value nor
its width: it is opaque, and a statement that mentions it holds whatever it is (DESIGN CHOICE, log 6). -/
opaque Config.algTag : Nat

/-- `LEN_W`, the width of every length and size register: OPEN, default 64 (R6, D13; DESIGN CHOICE, log 3). -/
def Config.lenW : Nat := 64

/-- `BUF_CAP`, the capacity in bytes of IBUF and of OBUF: OPEN, default unbounded (R6, D12; DESIGN CHOICE, log 4). -/
def Config.bufCap : Option Nat := none

/-- `KEYIN_CAP`, the capacity in elements of KEYIN: OPEN, default unbounded (R6, D11; DESIGN CHOICE, log 5). -/
def Config.keyinCap : Option Nat := none

end Sys2Proof
end

