-- ==== Sys2Proof/Machine/State.lean ====
section
/-! DEFINITION. The state of one core (10_state.md R10), beside it the host agent's own record, the state after
reset (R27), and the reasons a step can stop. -/

namespace Sys2Proof.Machine

/-- The fault codes 1 to 8 of `STATUS.ERR` (60_exceptions.md R190); code 0, no fault, is the absence of one. -/
inductive FaultCause where
  /-- code 1 -/
  | invalidKeyFormat
  /-- code 2 -/
  | invalidKeyLength
  /-- code 3 -/
  | invalidKeyEncoding
  /-- code 4 -/
  | invalidBlockSize
  /-- code 5 -/
  | invalidPadding
  /-- code 6 -/
  | invalidBase64
  /-- code 7 -/
  | decryptionFailed
  /-- code 8 -/
  | illegalCommand
  deriving DecidableEq, Repr

/-- `KTAG` = 0, `BIN`: KEYIN holds bytes (R16). -/
def tagBin : BitVec 2 := 0#2

/-- `KTAG` = 1, `STR`: KEYIN holds code points (R16). -/
def tagStr : BitVec 2 := 1#2

/-- The six data windows of 20_memory.md R40. -/
inductive Window where
  | st
  | key
  | rk
  | keyin
  | ibuf
  | obuf
  deriving DecidableEq, Repr

/-- What a `Read` move names (R49): a register by its number (R24), one element of a window, or the whole of OBUF. -/
inductive ReadTarget where
  | reg (n : Nat)
  | elem (w : Window) (i : Nat)
  | wholeObuf
  deriving DecidableEq, Repr

/-- What a `Read` move returns: one value, or the bytes of OBUF (R49). -/
inductive ReadValue where
  | value (n : Nat)
  | buffer (bs : List Byte)
  deriving DecidableEq, Repr

/-- The host's moves, "the *only* ways the host changes or reads the core" (20_memory.md section 5, R46 to R51).
`writeReg` takes the register's number of R24: 0 is a write to CMD, that is Issue (R19); 10 and 11 are GFA and GFB
(R48); every other is ignored (R24). -/
inductive HostMove where
  | loadIbuf (bs : List Byte)
  | loadKey (tag : BitVec 2) (es : List Elem)
  | writeData (w : Window) (i : Nat) (v : Byte)
  | writeReg (n : Nat) (v : Nat)
  | read (x : ReadTarget)
  | issue (c : CmdWord)
  | hardReset
  deriving DecidableEq, Repr

/-- The host agent (R7, R52): the moves it still makes, first move first, and what its reads have returned, newest
first. This is the model's record of the other agent, no part of the core (DESIGN CHOICE, log 1, log 13). -/
structure HostAgent where
  script : List HostMove
  got : List ReadValue
  deriving DecidableEq, Repr

/-- The architectural state of R10, field for field, and the host agent. `err` is the register ERR with code 0 as
`none`; STATUS, KLEN, ILEN, OLEN and ALGID are views, not state. -/
structure State where
  gfa : Byte
  gfb : Byte
  gfp : Byte
  st : Block
  key : Block
  rk : RoundKeys
  ktag : BitVec 2
  keyin : List Elem
  ibuf : List Byte
  obuf : List Byte
  fault : Bool
  err : Option FaultCause
  fcmd : CmdWord
  origSize : Len
  encSize : Len
  host : HostAgent
  deriving DecidableEq, Repr

/-- The state after reset: every value as 10_state.md R27 gives it, and a host that has nothing left to do and has
read nothing (DESIGN CHOICE, log 1, log 13). -/
def State.reset : State where
  gfa := 0x00#8
  gfb := 0x00#8
  gfp := 0x00#8
  st := zeroBlock
  key := zeroBlock
  rk := zeroRoundKeys
  ktag := tagBin
  keyin := []
  ibuf := []
  obuf := []
  fault := false
  err := none
  fcmd := 0x0000#16
  origSize := 0#64
  encSize := 0#64
  host := ⟨[], []⟩

/-- The reasons the machine stops with a fault: NONE. Every fault of this hardware is a defined next state
(60_exceptions.md R193, R198: "no stuck state"), so the type has no constructor. Safe: no step can end here
(DEDUCED, log 7). -/
inductive Fault where
  deriving DecidableEq, Repr

/-- The reasons the model gives no meaning. All but the first are steps the spec puts outside itself and asks a model
to refuse. -/
inductive Refusal where
  /-- Raised by `exec`'s arm of a command that has no meaning yet. Safe. No arm raises it. -/
  | notModelled (mnemonic : String)
  /-- Raised by a bulk command whose output, or size register, would exceed BUF_CAP or reach 2^LEN_W bytes: "outside
  the spec: refuse" (R6, D12, D13). Safe: the spec gives such a step no effect. -/
  | lengthOutsideSpec
  /-- Raised by LoadIBUF or LoadKey beyond BUF_CAP, KEYIN_CAP or 2^LEN_W elements (R46, R47, D12, D13). Safe: such
  a move is no host move of the spec. -/
  | loadBeyondCapacity
  /-- Raised by LoadKey with elements that are not legal for the tag: not bytes under BIN, not code points under STR
  (R47). Safe: such a move is no host move of the spec. -/
  | malformedKeyInput
  /-- Raised by WriteReg to CMD, GFA or GFB of a value wider than the register, which is no whole-register access
  (R24, R48). Safe: such a move is no host move of the spec. -/
  | valueWiderThanRegister
  deriving DecidableEq, Repr

end Sys2Proof.Machine
end

