-- ==== Sys2Proof/Machine/Ops.lean ====
section
/-! DEFINITION. The named operations every command is written over: the writes of one register or buffer, fault entry
and the return from a fault side by side (60_exceptions.md R193, R195), the fault-state gate (R194), and the capacity
checks of R6. -/

namespace Sys2Proof.Machine

/-- What `exec` and `step` answer. -/
abbrev Result := Host.Outcome State Fault Refusal

/-! ### Writes of one piece of state -/

/-- `GFA <- v`. -/
def State.setGfa (s : State) (v : Byte) : State := { s with gfa := v }
/-- `GFB <- v`. -/
def State.setGfb (s : State) (v : Byte) : State := { s with gfb := v }
/-- `GFP <- v`. -/
def State.setGfp (s : State) (v : Byte) : State := { s with gfp := v }
/-- `ST <- b`. -/
def State.setSt (s : State) (b : Block) : State := { s with st := b }
/-- `KEY <- b`. -/
def State.setKey (s : State) (b : Block) : State := { s with key := b }
/-- `RK <- ks`. -/
def State.setRk (s : State) (ks : RoundKeys) : State := { s with rk := ks }
/-- `KTAG <- tag; KEYIN <- es`, "both at once" (10_state.md R16). -/
def State.setKeyInput (s : State) (tag : BitVec 2) (es : List Elem) : State := { s with ktag := tag, keyin := es }
/-- `IBUF <- bs`, the whole buffer. -/
def State.setIbuf (s : State) (bs : List Byte) : State := { s with ibuf := bs }
/-- `OBUF <- bs`, "replaces its whole content" (10_state.md R18). -/
def State.setObuf (s : State) (bs : List Byte) : State := { s with obuf := bs }
/-- `ORIG_SIZE <- o; ENC_SIZE <- e` of two lengths (10_state.md R23). -/
def State.setSizes (s : State) (o e : Nat) : State :=
  { s with origSize := BitVec.ofNat 64 o, encSize := BitVec.ofNat 64 e }
/-- The host agent's record changes; the core does not. -/
def State.setHost (s : State) (h : HostAgent) : State := { s with host := h }

/-! ### Fault entry and return -/

/-- Fault entry (R193): command word `c` raises the fault `e`. What is not named here is unchanged: KEY, RK, GFA, GFB,
GFP, KTAG, KEYIN, IBUF. -/
def enterFault (e : FaultCause) (c : CmdWord) (s : State) : State :=
  { s with
    fault := true
    err := some e
    fcmd := c
    obuf := []
    st := zeroBlock
    origSize := 0#64
    encSize := 0#64 }

/-- The return from a fault, which is reset and nothing lighter (R195): every piece of core state takes its value of
10_state.md R27. The host agent is not part of the core. -/
def resetCore (s : State) : State := State.reset.setHost s.host

/-- The command `i` raises the fault `e`: `FCMD` receives the command word (R192). -/
def raise (i : Instr) (e : FaultCause) (s : State) : Result := .next (enterFault e (encode i) s)

/-- The fault state (R194): while `FAULT = 1` a command "does nothing at all". Every command but RST starts here. -/
def ifReady (s : State) (run : Result) : Result := if s.fault then .next s else run

/-- A command whose function may raise: it goes on with the value, or enters the fault and writes nothing of its own
(R193, "either completes all its writes or raises"). -/
def orRaise {α : Type} (i : Instr) (s : State) (r : Except FaultCause α) (go : α → Result) : Result :=
  match r with
  | .ok a => go a
  | .error e => raise i e s

/-! ### Capacities (R6, D11 to D13) -/

/-- Is a length inside `cap`, `none` being unbounded? -/
def withinCap (cap : Option Nat) (n : Nat) : Bool :=
  match cap with
  | none => true
  | some c => decide (n ≤ c)

/-- Is a length below 2^LEN_W (D13)? -/
def fitsLen (n : Nat) : Bool := decide (n < 2 ^ Config.lenW)

/-- May IBUF or OBUF hold `n` bytes (D12, D13)? -/
def fitsBuffer (n : Nat) : Bool := withinCap Config.bufCap n && fitsLen n

/-- May KEYIN hold `n` elements (D11, D13)? -/
def fitsKeyin (n : Nat) : Bool := withinCap Config.keyinCap n && fitsLen n

/-- Is `u` a code point, 0..0x10FFFF and not in 0xD800..0xDFFF (00_scope.md R9, 10_state.md R16)? -/
def isCodePoint (u : Elem) : Bool :=
  decide (u.toNat ≤ 0x10FFFF) && !(decide (0xD800 ≤ u.toNat) && decide (u.toNat ≤ 0xDFFF))

/-- Is every element legal for the tag (20_memory.md R47)? -/
def keyInputLegal (tag : BitVec 2) (es : List Elem) : Bool :=
  if tag = tagBin then es.all (fun u => decide (u.toNat < 256))
  else if tag = tagStr then es.all isCodePoint
  else true

/-- The buffers and the key input are ones the host and the commands may leave behind: within their capacities, and
the key input legal for its tag (R46, R47, R16, D11 to D13). This is the form the memories of this hardware, plain
sequences, always have (DESIGN CHOICE, log 12). -/
def Memory.wf (s : State) : Bool :=
  fitsBuffer s.ibuf.length && fitsBuffer s.obuf.length && fitsKeyin s.keyin.length && keyInputLegal s.ktag s.keyin

/-- A bulk command that succeeds with the bytes `out`: `k` builds the next state; an output outside the spec is
refused (D12, D13). -/
def withOutput (out : List Byte) (next : State) : Result :=
  if fitsBuffer out.length then .next next else .refused .lengthOutsideSpec

/-! ### Bytes and blocks -/

/-- `B[a .. a+n-1]` (R8). -/
def slice {α : Type} (l : List α) (a n : Nat) : List α := (l.drop a).take n

/-- The block of the first 16 bytes of a sequence: `block[i] <- B[i]` (20_memory.md R41). No rule reads beyond a
sequence's length, so the default is never seen where a length was checked first (R8). -/
def Block.ofBytes (bs : List Byte) : Block := Vector.ofFn fun i => bs.getD i.val 0x00#8

/-- `xor16(s, k)[i] = s[i] xor k[i]` (41_block_primitives.md R97). -/
def xor16 (s k : Block) : Block := Vector.ofFn fun i => s[i] ^^^ k[i]

/-! ### One element of a window (20_memory.md R40, R49) -/

/-- The elements of a window in index order, as unsigned numbers. `RK` is indexed `16*r + j`. -/
def windowElems (w : Window) (s : State) : List Nat :=
  match w with
  | .st => s.st.toList.map BitVec.toNat
  | .key => s.key.toList.map BitVec.toNat
  | .rk => (s.rk.toList.flatMap Vector.toList).map BitVec.toNat
  | .keyin => s.keyin.map BitVec.toNat
  | .ibuf => s.ibuf.map BitVec.toNat
  | .obuf => s.obuf.map BitVec.toNat

/-- Element `i` of a window; "reading an index at or beyond a sequence's length returns 0" (R49). -/
def readElem (w : Window) (i : Nat) (s : State) : Nat := (windowElems w s).getD i 0

end Sys2Proof.Machine
end

