-- ==== Sys2Proof/Machine/Control.lean ====
section
/-! DEFINITION. The control commands (48_control.md): OTOI and RST. -/

namespace Sys2Proof.Machine

/-- OTOI: `IBUF <- OBUF; OBUF <- []`, both from the old OBUF (R185). -/
def execOtoi (s : State) : Result := ifReady s (.next ((s.setIbuf s.obuf).setObuf []))

/-- RST: every piece of core state takes its reset value, in the fault state too (R186, R194). -/
def execRst (s : State) : Result := .next (resetCore s)

end Sys2Proof.Machine
end

