-- ==== Sys2Proof/Machine/Base64.lean ====
section
/-! DEFINITION. Base64BinaryCodec (46_base64.md): the alphabet, `b64enc`, the strict `b64dec`, B64E and B64D. Text is
one byte per character. -/

namespace Sys2Proof.Machine

/-- `B64[v]` for a 6-bit value (R155; UNVERIFIED, log 14). -/
def b64Char (v : BitVec 6) : Byte :=
  let n := v.toNat
  BitVec.ofNat 8 <|
    if n ≤ 25 then 0x41 + n
    else if n ≤ 51 then 0x61 + (n - 26)
    else if n ≤ 61 then 0x30 + (n - 52)
    else if n = 62 then 0x2b
    else 0x2f

/-- The pad character `=` (R155). -/
def b64Pad : Byte := 0x3d#8

/-- `b64val(ch)`, the inverse map, undefined (`none`) for every byte not in the table (R155). -/
def b64Val (ch : Byte) : Option (BitVec 6) :=
  let c := ch.toNat
  if 0x41 ≤ c ∧ c ≤ 0x5a then some (BitVec.ofNat 6 (c - 0x41))
  else if 0x61 ≤ c ∧ c ≤ 0x7a then some (BitVec.ofNat 6 (c - 0x61 + 26))
  else if 0x30 ≤ c ∧ c ≤ 0x39 then some (BitVec.ofNat 6 (c - 0x30 + 52))
  else if c = 0x2b then some 62#6
  else if c = 0x2f then some 63#6
  else none

/-- The 24 bits of a group of three bytes, `b0` most significant (R156). -/
def group24 (b0 b1 b2 : Byte) : BitVec 24 := b0 ++ b1 ++ b2

/-- The four sextets of a 24-bit group: `v[23:18]`, `v[17:12]`, `v[11:6]`, `v[5:0]` (R156). -/
def sextet (v : BitVec 24) (k : Nat) : BitVec 6 := v.extractLsb' (18 - 6 * k) 6

/-- `b64enc(d)` (R156; UNVERIFIED, log 14): full groups of three bytes, then the tail of one or two. -/
def b64Enc : List Byte → List Byte
  | [] => []
  | [b0] =>
    let v := group24 b0 0#8 0#8
    [b64Char (sextet v 0), b64Char (sextet v 1), b64Pad, b64Pad]
  | [b0, b1] =>
    let v := group24 b0 b1 0#8
    [b64Char (sextet v 0), b64Char (sextet v 1), b64Char (sextet v 2), b64Pad]
  | b0 :: b1 :: b2 :: rest =>
    let v := group24 b0 b1 b2
    [b64Char (sextet v 0), b64Char (sextet v 1), b64Char (sextet v 2), b64Char (sextet v 3)] ++ b64Enc rest

/-- `npad` of a group: `=` counts only in the last one or two places of the last group (R158). -/
def padCount (last : Bool) (c2 c3 : Byte) : Nat :=
  if last && c2 == b64Pad && c3 == b64Pad then 2
  else if last && c2 != b64Pad && c3 == b64Pad then 1
  else 0

/-- The 24 bits of four sextets, the first most significant (R158). -/
def ungroup24 (v0 v1 v2 v3 : BitVec 6) : BitVec 24 := v0 ++ v1 ++ v2 ++ v3

/-- The bytes of a 24-bit group: `v[23:16]`, `v[15:8]`, `v[7:0]` (R158). -/
def groupByte (v : BitVec 24) (k : Nat) : Byte := v.extractLsb' (16 - 8 * k) 8

/-- One group of four characters, checks (b), (c) and (d) of R158. -/
def b64DecGroup (last : Bool) (c0 c1 c2 c3 : Byte) : Except FaultCause (List Byte) :=
  match padCount last c2 c3 with
  | 0 =>
    match b64Val c0, b64Val c1, b64Val c2, b64Val c3 with
    | some v0, some v1, some v2, some v3 =>
      let v := ungroup24 v0 v1 v2 v3
      .ok [groupByte v 0, groupByte v 1, groupByte v 2]
    | _, _, _, _ => .error .invalidBase64
  | 1 =>
    match b64Val c0, b64Val c1, b64Val c2 with
    | some v0, some v1, some v2 =>
      if v2.extractLsb' 0 2 ≠ 0#2 then .error .invalidBase64
      else
        let v := ungroup24 v0 v1 v2 0#6
        .ok [groupByte v 0, groupByte v 1]
    | _, _, _ => .error .invalidBase64
  | _ =>
    match b64Val c0, b64Val c1 with
    | some v0, some v1 =>
      if v1.extractLsb' 0 4 ≠ 0#4 then .error .invalidBase64
      else .ok [groupByte (ungroup24 v0 v1 0#6 0#6) 0]
    | _, _ => .error .invalidBase64

/-- The groups of a text whose length is a multiple of 4, first to last (R158). -/
def b64DecGroups : List Byte → Except FaultCause (List Byte)
  | [] => .ok []
  | c0 :: c1 :: c2 :: c3 :: rest =>
    match b64DecGroup rest.isEmpty c0 c1 c2 c3 with
    | .error e => .error e
    | .ok bs =>
      match b64DecGroups rest with
      | .error e => .error e
      | .ok more => .ok (bs ++ more)
  | _ => .error .invalidBase64

/-- `b64dec(t)` (R158): check (a) first, then the groups. -/
def b64Dec (t : List Byte) : Except FaultCause (List Byte) :=
  if t.length % 4 ≠ 0 then .error .invalidBase64 else b64DecGroups t

/-- B64E: `OBUF <- b64enc(IBUF)` (R157). -/
def execB64e (s : State) : Result := ifReady s (withOutput (b64Enc s.ibuf) (s.setObuf (b64Enc s.ibuf)))

/-- B64D: `OBUF <- b64dec(IBUF)` (R159). -/
def execB64d (s : State) : Result :=
  ifReady s (orRaise .b64d s (b64Dec s.ibuf) fun out => withOutput out (s.setObuf out))

end Sys2Proof.Machine
end

