-- ==== Sys2Proof/Machine/GaloisField.lean ====
section
/-! DEFINITION. GaloisFieldArithmetic (40_gf_arithmetic.md): `xtime`, `gmul` and GFMUL. -/

namespace Sys2Proof.Machine

/-- `((a << 1) & 0xff) xor (0x1b if a[7] = 1 else 0x00)` (R80). -/
def xtime (a : Byte) : Byte := (a <<< 1) ^^^ (if a.getLsbD 7 then 0x1b#8 else 0x00#8)

/-- The loop of R81, `n` turns of it left: `b[0]` decides whether `a` is added to `p`, then `a` is multiplied by x
and `b` shifted right. -/
def gmulLoop : Nat → Byte → Byte → Byte → Byte
  | 0, _, _, p => p
  | n + 1, a, b, p => gmulLoop n (xtime a) (b >>> 1) (if b.getLsbD 0 then p ^^^ a else p)

/-- `gmul(a, b)`, the product in GF(2^8) modulo 0x11b (R81). -/
def gmul (a b : Byte) : Byte := gmulLoop 8 a b 0x00#8

/-- GFMUL: `GFP <- gmul(GFA, GFB)` (R82). -/
def execGfmul (s : State) : Result := ifReady s (.next (s.setGfp (gmul s.gfa s.gfb)))

end Sys2Proof.Machine
end

