-- ==== Sys2Proof/Machine/Operands.lean ====
section
/-! DEFINITION. The operand forms (30_encoding.md R61): one immediate, ADDRK's `rnd`, which selects a round key of the
register file RK; every other operand is implicit, a register or buffer named by the command's own rule. -/

namespace Sys2Proof.Machine

/-- The immediate of ADDRK: 4 bits, unsigned, zero-extended, not scaled; 11 to 15 name no round key (R61). -/
def roundIndex (rnd : BitVec 4) : Option (Fin 11) :=
  if h : rnd.toNat < 11 then some ⟨rnd.toNat, h⟩ else none

/-- `RK[r]` (10_state.md R15). -/
def roundKey (r : Fin 11) (ks : RoundKeys) : Block := ks[r]

end Sys2Proof.Machine
end

