-- ==== Sys2Proof/Machine/BlockPrimitives.lean ====
section
/-! DEFINITION. BlockCipherPrimitives (41_block_primitives.md): the constant tables, the four round steps and their
inverses, and SUBB, SHROW, MIXC, ADDRK, ISUBB, ISHROW, IMIXC. All read the whole old ST before writing any of the
new (R102). Byte `i` of the state is at row `i mod 4`, column `i div 4` (R90). -/

namespace Sys2Proof.Machine

/-! ### The substitution tables, row by row as R91 and R92 print them: row label the high nibble of the index -/

def sboxRow0 : List Byte := [0x63, 0x7c, 0x77, 0x7b, 0xf2, 0x6b, 0x6f, 0xc5, 0x30, 0x01, 0x67, 0x2b, 0xfe, 0xd7, 0xab, 0x76]
def sboxRow1 : List Byte := [0xca, 0x82, 0xc9, 0x7d, 0xfa, 0x59, 0x47, 0xf0, 0xad, 0xd4, 0xa2, 0xaf, 0x9c, 0xa4, 0x72, 0xc0]
def sboxRow2 : List Byte := [0xb7, 0xfd, 0x93, 0x26, 0x36, 0x3f, 0xf7, 0xcc, 0x34, 0xa5, 0xe5, 0xf1, 0x71, 0xd8, 0x31, 0x15]
def sboxRow3 : List Byte := [0x04, 0xc7, 0x23, 0xc3, 0x18, 0x96, 0x05, 0x9a, 0x07, 0x12, 0x80, 0xe2, 0xeb, 0x27, 0xb2, 0x75]
def sboxRow4 : List Byte := [0x09, 0x83, 0x2c, 0x1a, 0x1b, 0x6e, 0x5a, 0xa0, 0x52, 0x3b, 0xd6, 0xb3, 0x29, 0xe3, 0x2f, 0x84]
def sboxRow5 : List Byte := [0x53, 0xd1, 0x00, 0xed, 0x20, 0xfc, 0xb1, 0x5b, 0x6a, 0xcb, 0xbe, 0x39, 0x4a, 0x4c, 0x58, 0xcf]
def sboxRow6 : List Byte := [0xd0, 0xef, 0xaa, 0xfb, 0x43, 0x4d, 0x33, 0x85, 0x45, 0xf9, 0x02, 0x7f, 0x50, 0x3c, 0x9f, 0xa8]
def sboxRow7 : List Byte := [0x51, 0xa3, 0x40, 0x8f, 0x92, 0x9d, 0x38, 0xf5, 0xbc, 0xb6, 0xda, 0x21, 0x10, 0xff, 0xf3, 0xd2]
def sboxRow8 : List Byte := [0xcd, 0x0c, 0x13, 0xec, 0x5f, 0x97, 0x44, 0x17, 0xc4, 0xa7, 0x7e, 0x3d, 0x64, 0x5d, 0x19, 0x73]
def sboxRow9 : List Byte := [0x60, 0x81, 0x4f, 0xdc, 0x22, 0x2a, 0x90, 0x88, 0x46, 0xee, 0xb8, 0x14, 0xde, 0x5e, 0x0b, 0xdb]
def sboxRowa : List Byte := [0xe0, 0x32, 0x3a, 0x0a, 0x49, 0x06, 0x24, 0x5c, 0xc2, 0xd3, 0xac, 0x62, 0x91, 0x95, 0xe4, 0x79]
def sboxRowb : List Byte := [0xe7, 0xc8, 0x37, 0x6d, 0x8d, 0xd5, 0x4e, 0xa9, 0x6c, 0x56, 0xf4, 0xea, 0x65, 0x7a, 0xae, 0x08]
def sboxRowc : List Byte := [0xba, 0x78, 0x25, 0x2e, 0x1c, 0xa6, 0xb4, 0xc6, 0xe8, 0xdd, 0x74, 0x1f, 0x4b, 0xbd, 0x8b, 0x8a]
def sboxRowd : List Byte := [0x70, 0x3e, 0xb5, 0x66, 0x48, 0x03, 0xf6, 0x0e, 0x61, 0x35, 0x57, 0xb9, 0x86, 0xc1, 0x1d, 0x9e]
def sboxRowe : List Byte := [0xe1, 0xf8, 0x98, 0x11, 0x69, 0xd9, 0x8e, 0x94, 0x9b, 0x1e, 0x87, 0xe9, 0xce, 0x55, 0x28, 0xdf]
def sboxRowf : List Byte := [0x8c, 0xa1, 0x89, 0x0d, 0xbf, 0xe6, 0x42, 0x68, 0x41, 0x99, 0x2d, 0x0f, 0xb0, 0x54, 0xbb, 0x16]
def invSboxRow0 : List Byte := [0x52, 0x09, 0x6a, 0xd5, 0x30, 0x36, 0xa5, 0x38, 0xbf, 0x40, 0xa3, 0x9e, 0x81, 0xf3, 0xd7, 0xfb]
def invSboxRow1 : List Byte := [0x7c, 0xe3, 0x39, 0x82, 0x9b, 0x2f, 0xff, 0x87, 0x34, 0x8e, 0x43, 0x44, 0xc4, 0xde, 0xe9, 0xcb]
def invSboxRow2 : List Byte := [0x54, 0x7b, 0x94, 0x32, 0xa6, 0xc2, 0x23, 0x3d, 0xee, 0x4c, 0x95, 0x0b, 0x42, 0xfa, 0xc3, 0x4e]
def invSboxRow3 : List Byte := [0x08, 0x2e, 0xa1, 0x66, 0x28, 0xd9, 0x24, 0xb2, 0x76, 0x5b, 0xa2, 0x49, 0x6d, 0x8b, 0xd1, 0x25]
def invSboxRow4 : List Byte := [0x72, 0xf8, 0xf6, 0x64, 0x86, 0x68, 0x98, 0x16, 0xd4, 0xa4, 0x5c, 0xcc, 0x5d, 0x65, 0xb6, 0x92]
def invSboxRow5 : List Byte := [0x6c, 0x70, 0x48, 0x50, 0xfd, 0xed, 0xb9, 0xda, 0x5e, 0x15, 0x46, 0x57, 0xa7, 0x8d, 0x9d, 0x84]
def invSboxRow6 : List Byte := [0x90, 0xd8, 0xab, 0x00, 0x8c, 0xbc, 0xd3, 0x0a, 0xf7, 0xe4, 0x58, 0x05, 0xb8, 0xb3, 0x45, 0x06]
def invSboxRow7 : List Byte := [0xd0, 0x2c, 0x1e, 0x8f, 0xca, 0x3f, 0x0f, 0x02, 0xc1, 0xaf, 0xbd, 0x03, 0x01, 0x13, 0x8a, 0x6b]
def invSboxRow8 : List Byte := [0x3a, 0x91, 0x11, 0x41, 0x4f, 0x67, 0xdc, 0xea, 0x97, 0xf2, 0xcf, 0xce, 0xf0, 0xb4, 0xe6, 0x73]
def invSboxRow9 : List Byte := [0x96, 0xac, 0x74, 0x22, 0xe7, 0xad, 0x35, 0x85, 0xe2, 0xf9, 0x37, 0xe8, 0x1c, 0x75, 0xdf, 0x6e]
def invSboxRowa : List Byte := [0x47, 0xf1, 0x1a, 0x71, 0x1d, 0x29, 0xc5, 0x89, 0x6f, 0xb7, 0x62, 0x0e, 0xaa, 0x18, 0xbe, 0x1b]
def invSboxRowb : List Byte := [0xfc, 0x56, 0x3e, 0x4b, 0xc6, 0xd2, 0x79, 0x20, 0x9a, 0xdb, 0xc0, 0xfe, 0x78, 0xcd, 0x5a, 0xf4]
def invSboxRowc : List Byte := [0x1f, 0xdd, 0xa8, 0x33, 0x88, 0x07, 0xc7, 0x31, 0xb1, 0x12, 0x10, 0x59, 0x27, 0x80, 0xec, 0x5f]
def invSboxRowd : List Byte := [0x60, 0x51, 0x7f, 0xa9, 0x19, 0xb5, 0x4a, 0x0d, 0x2d, 0xe5, 0x7a, 0x9f, 0x93, 0xc9, 0x9c, 0xef]
def invSboxRowe : List Byte := [0xa0, 0xe0, 0x3b, 0x4d, 0xae, 0x2a, 0xf5, 0xb0, 0xc8, 0xeb, 0xbb, 0x3c, 0x83, 0x53, 0x99, 0x61]
def invSboxRowf : List Byte := [0x17, 0x2b, 0x04, 0x7e, 0xba, 0x77, 0xd6, 0x26, 0xe1, 0x69, 0x14, 0x63, 0x55, 0x21, 0x0c, 0x7d]
/-- The sixteen rows of SBOX (R91). -/
def sboxRows : List (List Byte) :=
  [sboxRow0, sboxRow1, sboxRow2, sboxRow3, sboxRow4, sboxRow5, sboxRow6, sboxRow7] ++
  [sboxRow8, sboxRow9, sboxRowa, sboxRowb, sboxRowc, sboxRowd, sboxRowe, sboxRowf]

/-- The sixteen rows of INV_SBOX (R92). -/
def invSboxRows : List (List Byte) :=
  [invSboxRow0, invSboxRow1, invSboxRow2, invSboxRow3, invSboxRow4, invSboxRow5, invSboxRow6, invSboxRow7] ++
  [invSboxRow8, invSboxRow9, invSboxRowa, invSboxRowb, invSboxRowc, invSboxRowd, invSboxRowe, invSboxRowf]

/-- An entry of a table printed in sixteen rows of sixteen: row the high nibble, column the low nibble.
The indexes always fit (DESIGN CHOICE, log 22). -/
def tableEntry (rows : List (List Byte)) (b : Byte) : Byte :=
  (rows.getD (b.toNat / 16) []).getD (b.toNat % 16) 0x00#8

/-- `SBOX[b]` (R91; UNVERIFIED, log 14). -/
def sbox (b : Byte) : Byte := tableEntry sboxRows b

/-- `INV_SBOX[b]` (R92; UNVERIFIED, log 14). -/
def invSbox (b : Byte) : Byte := tableEntry invSboxRows b

/-- `MIX` (R95). -/
def mixMatrix : List (List Byte) :=
  [[2#8, 3#8, 1#8, 1#8],
   [1#8, 2#8, 3#8, 1#8],
   [1#8, 1#8, 2#8, 3#8],
   [3#8, 1#8, 1#8, 2#8]]

/-- `INV_MIX` (R100; UNVERIFIED, log 14). -/
def invMixMatrix : List (List Byte) :=
  [[0x0e#8, 0x0b#8, 0x0d#8, 0x09#8],
   [0x09#8, 0x0e#8, 0x0b#8, 0x0d#8],
   [0x0d#8, 0x09#8, 0x0e#8, 0x0b#8],
   [0x0b#8, 0x0d#8, 0x09#8, 0x0e#8]]

/-- Entry (r, k) of a 4x4 matrix. -/
def coef (m : List (List Byte)) (r k : Nat) : Byte := (m.getD r []).getD k 0x00#8

/-! ### The round steps as functions of a block -/

/-- `sub_bytes(s)[i] = SBOX[s[i]]` (R93). -/
def subBytes (s : Block) : Block := Vector.ofFn fun i => sbox s[i]

/-- `shift_rows`: the byte at row r, column c becomes the old byte at row r, column (c + r) mod 4 (R94; DEDUCED, log 18). -/
def shiftRows (s : Block) : Block :=
  Vector.ofFn fun i => s[i.val % 4 + 4 * ((i.val / 4 + i.val % 4) % 4)]'(by omega)

/-- Every column left-multiplied by the matrix `m`: `o[r + 4c] = XOR over k of gmul(m[r][k], s[k + 4c])` (R95). -/
def mixWith (m : List (List Byte)) (s : Block) : Block :=
  Vector.ofFn fun i =>
    gmul (coef m (i.val % 4) 0) (s[0 + 4 * (i.val / 4)]'(by omega)) ^^^
    gmul (coef m (i.val % 4) 1) (s[1 + 4 * (i.val / 4)]'(by omega)) ^^^
    gmul (coef m (i.val % 4) 2) (s[2 + 4 * (i.val / 4)]'(by omega)) ^^^
    gmul (coef m (i.val % 4) 3) (s[3 + 4 * (i.val / 4)]'(by omega))

/-- `mix_columns` (R95). -/
def mixColumns (s : Block) : Block := mixWith mixMatrix s

/-- `inv_sub_bytes(s)[i] = INV_SBOX[s[i]]` (R98). -/
def invSubBytes (s : Block) : Block := Vector.ofFn fun i => invSbox s[i]

/-- `inv_shift_rows`: the old byte at row r, column c goes to row r, column (c + r) mod 4 (R99), so the new byte at
row r, column c is the old one at column (c + 4 - r) mod 4. -/
def invShiftRows (s : Block) : Block :=
  Vector.ofFn fun i => s[i.val % 4 + 4 * ((i.val / 4 + 4 - i.val % 4) % 4)]'(by omega)

/-- `inv_mix_columns`: `mix_columns` with INV_MIX in place of MIX (R100). -/
def invMixColumns (s : Block) : Block := mixWith invMixMatrix s

/-! ### The commands -/

/-- SUBB (R93). -/
def execSubb (s : State) : Result := ifReady s (.next (s.setSt (subBytes s.st)))

/-- SHROW (R94). -/
def execShrow (s : State) : Result := ifReady s (.next (s.setSt (shiftRows s.st)))

/-- MIXC (R96). -/
def execMixc (s : State) : Result := ifReady s (.next (s.setSt (mixColumns s.st)))

/-- ADDRK rnd (R97): `ST[i] <- ST[i] xor RK[rnd][i]`. An index above 10 is `IllegalCommand`, "raised by the decoder
before anything is read"; the decoder yields no such term, and the meaning says the same of one (DESIGN CHOICE, log 10). -/
def execAddrk (rnd : BitVec 4) (s : State) : Result :=
  ifReady s <|
    match roundIndex rnd with
    | some r => .next (s.setSt (xor16 s.st (roundKey r s.rk)))
    | none => raise (.addrk rnd) .illegalCommand s

/-- ISUBB (R98). -/
def execIsubb (s : State) : Result := ifReady s (.next (s.setSt (invSubBytes s.st)))

/-- ISHROW (R99). -/
def execIshrow (s : State) : Result := ifReady s (.next (s.setSt (invShiftRows s.st)))

/-- IMIXC (R101). -/
def execImixc (s : State) : Result := ifReady s (.next (s.setSt (invMixColumns s.st)))

end Sys2Proof.Machine
end

