-- ==== Sys2Proof/Machine/BlockEngine.lean ====
section
/-! DEFINITION. BlockCipherEngine and ECB chaining (45_block_engine.md): one block, a buffer of blocks, and ENCB, DECB,
ECBE, ECBD. There is no IV, no counter and no feedback (00_scope.md R5). -/

namespace Sys2Proof.Machine

/-- The rounds 1..9 of R140, step 2. -/
def fullRounds : List (Fin 11) := [1, 2, 3, 4, 5, 6, 7, 8, 9]

/-- One full encryption round under one round key (R140, step 2). -/
def encRound (rk : RoundKeys) (s : Block) (r : Fin 11) : Block :=
  xor16 (mixColumns (shiftRows (subBytes s))) (roundKey r rk)

/-- `encrypt_block(pt, rk)` (R140). -/
def encryptBlock (pt : Block) (rk : RoundKeys) : Block :=
  xor16 (shiftRows (subBytes (fullRounds.foldl (encRound rk) (xor16 pt (roundKey 0 rk))))) (roundKey 10 rk)

/-- One full decryption round under one round key (R142). -/
def decRound (rk : RoundKeys) (s : Block) (r : Fin 11) : Block :=
  invSubBytes (invShiftRows (invMixColumns (xor16 s (roundKey r rk))))

/-- `decrypt_block(ct, rk)` (R142), round 9 down to 1. -/
def decryptBlock (ct : Block) (rk : RoundKeys) : Block :=
  xor16 (fullRounds.reverse.foldl (decRound rk) (invSubBytes (invShiftRows (xor16 ct (roundKey 10 rk)))))
    (roundKey 0 rk)

/-- `f` on each of the first `n` blocks of `d`, the outputs joined in block order (R144; DESIGN CHOICE, log 19). -/
def mapBlocks (f : Block → Block) : Nat → List Byte → List Byte
  | 0, _ => []
  | n + 1, d => (f (Block.ofBytes d)).toList ++ mapBlocks f n (d.drop 16)

/-- The chain of R144: the length is checked before any block is processed. -/
def ecb (f : Block → Block) (d : List Byte) : Except FaultCause (List Byte) :=
  if d.length % 16 ≠ 0 then .error .invalidBlockSize else .ok (mapBlocks f (d.length / 16) d)

/-- `ecb_encrypt(d, rk)` (R144). -/
def ecbEncrypt (d : List Byte) (rk : RoundKeys) : Except FaultCause (List Byte) :=
  ecb (fun b => encryptBlock b rk) d

/-- `ecb_decrypt(d, rk)` (R144). -/
def ecbDecrypt (d : List Byte) (rk : RoundKeys) : Except FaultCause (List Byte) :=
  ecb (fun b => decryptBlock b rk) d

/-- ENCB: `ST <- encrypt_block(ST, RK)` (R141). -/
def execEncb (s : State) : Result := ifReady s (.next (s.setSt (encryptBlock s.st s.rk)))

/-- DECB: `ST <- decrypt_block(ST, RK)` (R143). -/
def execDecb (s : State) : Result := ifReady s (.next (s.setSt (decryptBlock s.st s.rk)))

/-- ECBE: `OBUF <- ecb_encrypt(IBUF, RK); ST <- 0` (R145). -/
def execEcbe (s : State) : Result :=
  ifReady s (orRaise .ecbe s (ecbEncrypt s.ibuf s.rk) fun out =>
    withOutput out ((s.setObuf out).setSt zeroBlock))

/-- ECBD: `OBUF <- ecb_decrypt(IBUF, RK); ST <- 0` (R146). -/
def execEcbd (s : State) : Result :=
  ifReady s (orRaise .ecbd s (ecbDecrypt s.ibuf s.rk) fun out =>
    withOutput out ((s.setObuf out).setSt zeroBlock))

end Sys2Proof.Machine
end

