-- ==== Sys2Proof/Machine/KeyCodec.lean ====
section
/-! DEFINITION. KeyCodec (43_key_codec.md): `normalize` and KEYLD, and the UTF-8 encoding its text path stands for. -/

namespace Sys2Proof.Machine

/-- A hex digit: `0`..`9`, `a`..`f` or `A`..`F`, cases mixed (R121). -/
def isHexDigit (u : Elem) : Bool :=
  (decide (0x30 ≤ u.toNat) && decide (u.toNat ≤ 0x39)) ||
  (decide (0x61 ≤ u.toNat) && decide (u.toNat ≤ 0x66)) ||
  (decide (0x41 ≤ u.toNat) && decide (u.toNat ≤ 0x46))

/-- `hexval` of a hex digit (R122). -/
def hexVal (u : Elem) : Nat :=
  if u.toNat ≤ 0x39 then u.toNat - 0x30
  else if u.toNat ≤ 0x46 then u.toNat - 0x41 + 10
  else u.toNat - 0x61 + 10

/-- `hex_decode(es)[i] = 16 * hexval(es[2i]) + hexval(es[2i+1])`, for 32 hex digits (R122; UNVERIFIED, log 14). -/
def hexDecode (es : List Elem) : Block :=
  Vector.ofFn fun i =>
    BitVec.ofNat 8 (16 * hexVal (es.getD (2 * i.val) 0#21) + hexVal (es.getD (2 * i.val + 1) 0#21))

/-- Sixteen elements as sixteen bytes, "each code point as one byte" (R121, cases B1 and S3). Where the case applies
every element is below 256 (R47) or below 0x80, so no bit is lost (DESIGN CHOICE, log 9). -/
def elemBytes (es : List Elem) : Block := Vector.ofFn fun i => (es.getD i.val 0#21).setWidth 8

/-- `normalize(tag, es)` (R121), its cases in the rule's order. -/
def normalize (tag : BitVec 2) (es : List Elem) : Except FaultCause Block :=
  if tag = tagBin then
    if es.length = 16 then .ok (elemBytes es)
    else .error .invalidKeyLength
  else if tag = tagStr then
    if es.length = 32 then
      if es.all isHexDigit then .ok (hexDecode es) else .error .invalidKeyEncoding
    else if es.length = 16 then
      if es.all (fun u => decide (u.toNat < 0x80)) then .ok (elemBytes es) else .error .invalidKeyLength
    else .error .invalidKeyFormat
  else .error .invalidKeyFormat

/-- The UTF-8 encoding of a code point: one, two, three or four bytes (R123; UNVERIFIED, log 14). -/
def utf8 (u : Elem) : List Byte :=
  let n := u.toNat
  if n < 0x80 then [BitVec.ofNat 8 n]
  else if n < 0x800 then [BitVec.ofNat 8 (0xC0 + n / 64), BitVec.ofNat 8 (0x80 + n % 64)]
  else if n < 0x10000 then
    [BitVec.ofNat 8 (0xE0 + n / 4096), BitVec.ofNat 8 (0x80 + n / 64 % 64), BitVec.ofNat 8 (0x80 + n % 64)]
  else
    [BitVec.ofNat 8 (0xF0 + n / 262144), BitVec.ofNat 8 (0x80 + n / 4096 % 64),
     BitVec.ofNat 8 (0x80 + n / 64 % 64), BitVec.ofNat 8 (0x80 + n % 64)]

/-- The UTF-8 encoding of a text (R123). -/
def utf8Text (es : List Elem) : List Byte := es.flatMap utf8

/-- KEYLD: `KEY <- normalize(KTAG, KEYIN)`; on a fault KEY keeps its value (R124). -/
def execKeyld (s : State) : Result :=
  ifReady s (orRaise .keyld s (normalize s.ktag s.keyin) fun k => .next (s.setKey k))

end Sys2Proof.Machine
end

