-- ==== Sys2Proof/Machine/KeySchedule.lean ====
section
/-! DEFINITION. KeyScheduler (42_key_schedule.md): RCON, the word operations, `expand`, and KEYEXP. Words are byte
sequences, never integers (R110). -/

namespace Sys2Proof.Machine

/-- `RCON`, sixteen entries; index 0 and 11 to 15 are never read and filled as R111 fixes them (UNVERIFIED, log 14). -/
def rconTable : List Byte :=
  [0x00#8, 0x01#8, 0x02#8, 0x04#8, 0x08#8, 0x10#8, 0x20#8, 0x40#8,
   0x80#8, 0x1b#8, 0x36#8, 0x6c#8, 0xd8#8, 0xab#8, 0x4d#8, 0x9a#8]

/-- `RCON[j]` (R111). -/
def rcon (j : Nat) : Byte := rconTable.getD j 0x00#8

/-- The word of four zero bytes, a default that is never read (DESIGN CHOICE, log 22). -/
def zeroWord : KeyWord := Vector.replicate 4 0x00#8

/-- `xor` of two words, byte by byte (R110). -/
def xorWord (a b : KeyWord) : KeyWord := Vector.ofFn fun i => a[i] ^^^ b[i]

/-- `rot_word([b0, b1, b2, b3]) = [b1, b2, b3, b0]` (R112). -/
def rotWord (w : KeyWord) : KeyWord := #v[w[1], w[2], w[3], w[0]]

/-- `sub_word`: SBOX on each byte (R112). -/
def subWord (w : KeyWord) : KeyWord := #v[sbox w[0], sbox w[1], sbox w[2], sbox w[3]]

/-- `temp[0] = temp[0] xor c`: only the first byte changes (R113). -/
def xorFirst (w : KeyWord) (c : Byte) : KeyWord := #v[w[0] ^^^ c, w[1], w[2], w[3]]

/-- `temp` of word `i`, from `w[i-1]` (R113, step 2). -/
def scheduleTemp (i : Nat) (prev : KeyWord) : KeyWord :=
  if i % 4 = 0 then xorFirst (subWord (rotWord prev)) (rcon (i / 4)) else prev

/-- Word `i` of the key, `key[4i .. 4i+3]`, for `i` in 0..3 (R113, step 1). -/
def keyWord (key : Block) (i : Fin 4) : KeyWord :=
  Vector.ofFn fun j => key[4 * i.val + j.val]'(by omega)

/-- The next word after the words so far: `w[i] = w[i-4] xor temp` (R113, step 2). -/
def nextWord (ws : List KeyWord) : KeyWord :=
  xorWord (ws.getD (ws.length - 4) zeroWord) (scheduleTemp ws.length (ws.getD (ws.length - 1) zeroWord))

/-- `n` turns of the loop of R113, step 2. -/
def extendWords : Nat → List KeyWord → List KeyWord
  | 0, ws => ws
  | n + 1, ws => extendWords n (ws ++ [nextWord ws])

/-- The 44 schedule words `w[0..43]` (R113, steps 1 and 2). -/
def scheduleWords (key : Block) : List KeyWord :=
  extendWords 40 [keyWord key 0, keyWord key 1, keyWord key 2, keyWord key 3]

/-- `w[i]`. -/
def scheduleWord (key : Block) (i : Nat) : KeyWord := (scheduleWords key).getD i zeroWord

/-- `expand(key)`: round key `r` is `w[4r] ++ w[4r+1] ++ w[4r+2] ++ w[4r+3]` (R113, step 3). -/
def expand (key : Block) : RoundKeys :=
  Vector.ofFn fun r => Vector.ofFn fun j =>
    (scheduleWord key (4 * r.val + j.val / 4))[j.val % 4]'(by omega)

/-- KEYEXP: `RK <- expand(KEY)` (R114). -/
def execKeyexp (s : State) : Result := ifReady s (.next (s.setRk (expand s.key)))

end Sys2Proof.Machine
end

