-- ==== Sys2Proof/Machine/Padder.lean ====
section
/-! DEFINITION. Pkcs7Padder (44_pkcs7_padder.md): `pad`, `unpad`, PAD and UNPAD. -/

namespace Sys2Proof.Machine

/-- `p = 16 - (len(d) mod 16)`, 1 to 16 (R130). -/
def padLength (d : List Byte) : Nat := 16 - d.length % 16

/-- `pad(d) = d ++ [p] * p` (R130). -/
def pad (d : List Byte) : List Byte := d ++ List.replicate (padLength d) (BitVec.ofNat 8 (padLength d))

/-- `unpad(d)` with its checks (a) to (d) in order (R132). There is no multiple-of-16 check. -/
def unpad (d : List Byte) : Except FaultCause (List Byte) :=
  match d.getLast? with
  | none => .error .invalidPadding
  | some p =>
    if p.toNat < 1 ∨ p.toNat > 16 then .error .invalidPadding
    else if p.toNat > d.length then .error .invalidPadding
    else if (d.drop (d.length - p.toNat)).any (fun x => x != p) then .error .invalidPadding
    else .ok (d.take (d.length - p.toNat))

/-- PAD: `OBUF <- pad(IBUF)` (R131). -/
def execPad (s : State) : Result := ifReady s (withOutput (pad s.ibuf) (s.setObuf (pad s.ibuf)))

/-- UNPAD: `OBUF <- unpad(IBUF)` (R133). -/
def execUnpad (s : State) : Result :=
  ifReady s (orRaise .unpad s (unpad s.ibuf) fun out => withOutput out (s.setObuf out))

end Sys2Proof.Machine
end

