-- ==== Sys2Proof/Machine/Pipelines.lean ====
section
/-! DEFINITION. FileEncryptionPipeline and FileDecryptionPipeline (47_pipelines.md): ENCF, DECF and the result record. -/

namespace Sys2Proof.Machine

/-- What a pipeline hands back: the payload, the key and its schedule (R170, R173). -/
structure FileResult where
  payload : List Byte
  key : Block
  roundKeys : RoundKeys
  deriving DecidableEq, Repr

/-- `encrypt_file(raw, tag, es)` (R170). -/
def encryptFile (raw : List Byte) (tag : BitVec 2) (es : List Elem) : Except FaultCause FileResult :=
  match normalize tag es with
  | .error e => .error e
  | .ok key =>
    match ecbEncrypt (pad (b64Enc raw)) (expand key) with
    | .error e => .error e
    | .ok ct => .ok ⟨ct, key, expand key⟩

/-- `InvalidPadding -> raise DecryptionFailed`, `InvalidBase64 -> raise DecryptionFailed`: the sub-step that failed is
not told (R173, R199). -/
def asDecryptionFailed {α : Type} (r : Except FaultCause α) : Except FaultCause α :=
  match r with
  | .ok a => .ok a
  | .error _ => .error .decryptionFailed

/-- `decrypt_file(ct, tag, es)`, its checks (1) to (4) in order (R173). -/
def decryptFile (ct : List Byte) (tag : BitVec 2) (es : List Elem) : Except FaultCause FileResult :=
  match normalize tag es with
  | .error e => .error e
  | .ok key =>
    match ecbDecrypt ct (expand key) with
    | .error e => .error e
    | .ok p =>
      match asDecryptionFailed (unpad p) with
      | .error e => .error e
      | .ok b64 =>
        match asDecryptionFailed (b64Dec b64) with
        | .error e => .error e
        | .ok raw => .ok ⟨raw, key, expand key⟩

/-- The writes of a pipeline that succeeds, all at once (R171, R174): the payload into OBUF, the two sizes, the key
and its schedule, and ST zeroed. Sizes outside the spec are refused (D12, D13). -/
def installFile (r : FileResult) (orig enc : Nat) (s : State) : Result :=
  if fitsLen orig && fitsLen enc then
    withOutput r.payload
      (((((s.setObuf r.payload).setSizes orig enc).setKey r.key).setRk r.roundKeys).setSt zeroBlock)
  else .refused .lengthOutsideSpec

/-- ENCF (R171): ORIG_SIZE is the length of the raw bytes, ENC_SIZE that of the ciphertext. -/
def execEncf (s : State) : Result :=
  ifReady s (orRaise .encf s (encryptFile s.ibuf s.ktag s.keyin) fun r =>
    installFile r s.ibuf.length r.payload.length s)

/-- DECF (R174): ORIG_SIZE is the length of the raw bytes, ENC_SIZE that of the ciphertext. -/
def execDecf (s : State) : Result :=
  ifReady s (orRaise .decf s (decryptFile s.ibuf s.ktag s.keyin) fun r =>
    installFile r r.payload.length s.ibuf.length s)

/-- `16 * ((4 * ((n + 2) div 3)) div 16 + 1)`, the ciphertext length of `n` raw bytes (R172). -/
def fileSize (n : Nat) : Nat := 16 * (4 * ((n + 2) / 3) / 16 + 1)

/-- The PipelineResult record as the hardware shows it (R176): a view of registers, not state. -/
structure PipelineResult where
  failed : Bool
  error : Option FaultCause
  payload : List Byte
  originalSize : Len
  encryptedSize : Len
  algorithm : Nat
  deriving DecidableEq, Repr

/-- The record read off the registers (R176). -/
def pipelineResult (s : State) : PipelineResult :=
  ⟨s.fault, s.err, s.obuf, s.origSize, s.encSize, Config.algTag⟩

end Sys2Proof.Machine
end

