-- ==== Sys2Proof/Machine/Dispatch.lean ====
section
/-! DEFINITION. One arm per command (30_encoding.md R62). -/

namespace Sys2Proof.Machine

/-- What issuing the command does (R63, step 2 and step 4; step 1 for RST). -/
def exec (i : Instr) (s : State) : Host.Outcome State Fault Refusal :=
  match i with
  | .gfmul => Sys2Proof.Machine.execGfmul s
  | .subb => Sys2Proof.Machine.execSubb s
  | .shrow => Sys2Proof.Machine.execShrow s
  | .mixc => Sys2Proof.Machine.execMixc s
  | .addrk rnd => Sys2Proof.Machine.execAddrk rnd s
  | .isubb => Sys2Proof.Machine.execIsubb s
  | .ishrow => Sys2Proof.Machine.execIshrow s
  | .imixc => Sys2Proof.Machine.execImixc s
  | .keyexp => Sys2Proof.Machine.execKeyexp s
  | .keyld => Sys2Proof.Machine.execKeyld s
  | .pad => Sys2Proof.Machine.execPad s
  | .unpad => Sys2Proof.Machine.execUnpad s
  | .encb => Sys2Proof.Machine.execEncb s
  | .decb => Sys2Proof.Machine.execDecb s
  | .ecbe => Sys2Proof.Machine.execEcbe s
  | .ecbd => Sys2Proof.Machine.execEcbd s
  | .b64e => Sys2Proof.Machine.execB64e s
  | .b64d => Sys2Proof.Machine.execB64d s
  | .encf => Sys2Proof.Machine.execEncf s
  | .decf => Sys2Proof.Machine.execDecf s
  | .otoi => Sys2Proof.Machine.execOtoi s
  | .rst => Sys2Proof.Machine.execRst s

end Sys2Proof.Machine
end

