-- ==== Sys2Proof/Machine/Flags.lean ====
section
/-! DEFINITION. The one flag, FAULT, the error code, and the STATUS register made of them (10_state.md R13, R20;
60_exceptions.md R190). There are no condition codes, no carry and no zero flag. -/

namespace Sys2Proof.Machine

/-- The code numbers of 60_exceptions.md R190. -/
def FaultCause.code : FaultCause → BitVec 4
  | .invalidKeyFormat => 1#4
  | .invalidKeyLength => 2#4
  | .invalidKeyEncoding => 3#4
  | .invalidBlockSize => 4#4
  | .invalidPadding => 5#4
  | .invalidBase64 => 6#4
  | .decryptionFailed => 7#4
  | .illegalCommand => 8#4

/-- The field `ERR`: the code of the first fault since reset, 0 for none (R20). -/
def errCode : Option FaultCause → BitVec 4
  | none => 0#4
  | some e => e.code

/-- `STATUS`: FAULT in bit 0, bits 3:1 read as 0, ERR in bits 7:4 (R20). -/
def statusReg (s : State) : BitVec 8 :=
  errCode s.err ++ 0#3 ++ BitVec.ofBool s.fault

end Sys2Proof.Machine
end

