-- ==== Sys2Proof/Machine/HostMoves.lean ====
section
/-! DEFINITION. The host moves (20_memory.md R46 to R51) and the register space they read and write (10_state.md R24).
All of them work in the fault state (60_exceptions.md R194). -/

namespace Sys2Proof.Machine

/-! ### Registers (R24) -/

/-- The registers of R24; numbers 13 and up are `unmapped`. -/
inductive Reg where
  | cmd
  | status
  | fcmd
  | algid
  | ktag
  | klen
  | ilen
  | olen
  | origSize
  | encSize
  | gfa
  | gfb
  | gfp
  | unmapped
  deriving DecidableEq, Repr

/-- The number column of R24. -/
def Reg.ofNumber : Nat → Reg
  | 0 => .cmd
  | 1 => .status
  | 2 => .fcmd
  | 3 => .algid
  | 4 => .ktag
  | 5 => .klen
  | 6 => .ilen
  | 7 => .olen
  | 8 => .origSize
  | 9 => .encSize
  | 10 => .gfa
  | 11 => .gfb
  | 12 => .gfp
  | _ => .unmapped

/-- The value a read of the register returns, as an unsigned number (R19 to R24): CMD stores nothing and reads 0, and
so does an unmapped number. -/
def readReg (r : Reg) (s : State) : Nat :=
  match r with
  | .cmd => 0
  | .status => (statusReg s).toNat
  | .fcmd => s.fcmd.toNat
  | .algid => Config.algTag
  | .ktag => s.ktag.toNat
  | .klen => s.keyin.length
  | .ilen => s.ibuf.length
  | .olen => s.obuf.length
  | .origSize => s.origSize.toNat
  | .encSize => s.encSize.toNat
  | .gfa => s.gfa.toNat
  | .gfb => s.gfb.toNat
  | .gfp => s.gfp.toNat
  | .unmapped => 0

/-! ### The moves -/

/-- `LoadIBUF(bs)`: the whole buffer, nothing else (R46). -/
def moveLoadIbuf (bs : List Byte) (s : State) : Result :=
  if fitsBuffer bs.length then .next (s.setIbuf bs) else .refused .loadBeyondCapacity

/-- `LoadKey(tag, es)`: `KTAG <- tag; KEYIN <- es`, nothing else (R47). -/
def moveLoadKey (tag : BitVec 2) (es : List Elem) (s : State) : Result :=
  if fitsKeyin es.length then
    if keyInputLegal tag es then .next (s.setKeyInput tag es) else .refused .malformedKeyInput
  else .refused .loadBeyondCapacity

/-- Byte `i` of a block stored; an index out of range is ignored (R48). -/
def setByte (b : Block) (i : Nat) (v : Byte) : Block := b.setIfInBounds i v

/-- Byte `16*r + j` of the round-key file stored as `RK[r][j]`; an index out of range is ignored (R40, R48). -/
def setRkByte (ks : RoundKeys) (i : Nat) (v : Byte) : RoundKeys :=
  if h : i / 16 < 11 then ks.set (i / 16) (setByte ks[i / 16] (i % 16) v) else ks

/-- `WriteData(space, i, v)` (R48). KEYIN and IBUF are written only by their own loads and OBUF by no host move
(R40), so a write of one byte there is ignored (D37). -/
def moveWriteData (w : Window) (i : Nat) (v : Byte) (s : State) : Result :=
  match w with
  | .st => .next (s.setSt (setByte s.st i v))
  | .key => .next (s.setKey (setByte s.key i v))
  | .rk => .next (s.setRk (setRkByte s.rk i v))
  | .keyin => .next s
  | .ibuf => .next s
  | .obuf => .next s

/-- `Issue(c)` (R50, R63). `exec` itself holds steps 1, 2 and 4; step 3, an illegal word, raises IllegalCommand
unless the fault state ignores it. -/
def moveIssue (c : CmdWord) (s : State) : Result :=
  match decode c with
  | .ok i => exec i s
  | .error _ => ifReady s (.next (enterFault .illegalCommand c s))

/-- `WriteReg(n, v)` (R48): a write to CMD is Issue (R19); GFA and GFB store the byte; a write to a read-only or
unmapped register is ignored (R24). Registers are accessed whole, so a value wider than the register is no access
of the spec (DESIGN CHOICE, log 17). -/
def moveWriteReg (n v : Nat) (s : State) : Result :=
  match Reg.ofNumber n with
  | .cmd => if v < 65536 then moveIssue (BitVec.ofNat 16 v) s else .refused .valueWiderThanRegister
  | .gfa => if v < 256 then .next (s.setGfa (BitVec.ofNat 8 v)) else .refused .valueWiderThanRegister
  | .gfb => if v < 256 then .next (s.setGfb (BitVec.ofNat 8 v)) else .refused .valueWiderThanRegister
  | .status => .next s
  | .fcmd => .next s
  | .algid => .next s
  | .ktag => .next s
  | .klen => .next s
  | .ilen => .next s
  | .olen => .next s
  | .origSize => .next s
  | .encSize => .next s
  | .gfp => .next s
  | .unmapped => .next s

/-- What `Read(x)` returns (R49). -/
def readTarget (x : ReadTarget) (s : State) : ReadValue :=
  match x with
  | .reg n => .value (readReg (Reg.ofNumber n) s)
  | .elem w i => .value (readElem w i s)
  | .wholeObuf => .buffer s.obuf

/-- `Read(x)` changes nothing in the core; the host now has the value (R49). -/
def moveRead (x : ReadTarget) (s : State) : Result :=
  .next (s.setHost ⟨s.host.script, readTarget x s :: s.host.got⟩)

/-- `HardReset`: every piece of core state takes its value of R27 (R51). -/
def moveHardReset (s : State) : Result := .next (resetCore s)

/-- One move of the host (20_memory.md section 5: "A model has one transition per move"). -/
def hostMove (m : HostMove) (s : State) : Result :=
  match m with
  | .loadIbuf bs => moveLoadIbuf bs s
  | .loadKey tag es => moveLoadKey tag es s
  | .writeData w i v => moveWriteData w i v s
  | .writeReg n v => moveWriteReg n v s
  | .read x => moveRead x s
  | .issue c => moveIssue c s
  | .hardReset => moveHardReset s

/-- The host makes its next move `m`, `rest` being what is left. -/
def takeMove (m : HostMove) (rest : List HostMove) (s : State) : Result :=
  hostMove m (s.setHost ⟨rest, s.host.got⟩)

/-- Nothing happens while the host makes no move: "the only events are host moves and the commands they issue"
(60_exceptions.md R197). -/
def idle (s : State) : Result := .next s

/-- The host's script with one more `Issue` in front. -/
def prependIssue (c : CmdWord) (s : State) : State := s.setHost ⟨.issue c :: s.host.script, s.host.got⟩

end Sys2Proof.Machine
end

