-- ==== Sys2Proof/Machine/Step.lean ====
section
/-! DEFINITION. One step: the host's next move, run to completion (20_memory.md R50, R52). The hardware fetches
nothing (10_state.md R12); the order of execution is the order of the host's moves. -/

namespace Sys2Proof.Machine

/-- The host's first remaining move; with none left, nothing happens. -/
def step (s : State) : Host.Outcome State Fault Refusal :=
  match s.host.script with
  | [] => idle s
  | m :: rest => takeMove m rest s

/-- The command word `w` as the host's very next move (DESIGN CHOICE, log 2). -/
def State.withFetchWord (s : State) (nbits w : Nat) : State :=
  prependIssue (BitVec.ofNat 16 (w % 2 ^ nbits)) s

end Sys2Proof.Machine
end

