-- ==== Sys2Proof/Machine/Listing.lean ====
section
/-! DEFINITION. The assembler syntax of the spec's listings (30_encoding.md R66 to R68): commands by mnemonic and operand,
the three macros, and the host directives, as host moves. None of them has an encoding of its own. -/

namespace Sys2Proof.Machine

/-- The command a mnemonic and its decimal operand name (R66): ADDRK takes one, 0..10; no other command does. -/
def assemble (mnemonic : String) (operand : Option Nat) : Option Instr :=
  match operand with
  | some r => if mnemonic = "ADDRK" then (if r ≤ 10 then some (.addrk (BitVec.ofNat 4 r)) else none) else none
  | none =>
    [Instr.gfmul, .subb, .shrow, .mixc, .isubb, .ishrow, .imixc, .keyexp, .keyld, .pad, .unpad,
      .encb, .decb, .ecbe, .ecbd, .b64e, .b64d, .encf, .decf, .otoi, .rst].find? (fun i => i.mnemonic = mnemonic)

/-- `ROUND r` (R67). The spec gives a line with `r` outside 1..9 no meaning; the model expands it as if it were legal
(DESIGN CHOICE, log 23). -/
def macroRound (r : BitVec 4) : List Instr := [.subb, .shrow, .mixc, .addrk r]

/-- `FROUND` (R67). -/
def macroFround : List Instr := [.subb, .shrow, .addrk 10#4]

/-- `IROUND r` (R67). The spec gives a line with `r` outside 1..9 no meaning; the model expands it as if it were legal
(DESIGN CHOICE, log 23). -/
def macroIround (r : BitVec 4) : List Instr := [.addrk r, .imixc, .ishrow, .isubb]

/-- The 40 commands that equal ENCB: `ADDRK 0; ROUND 1; ...; ROUND 9; FROUND` (R67, 45_block_engine.md R141). -/
def encbListing : List Instr :=
  [.addrk 0#4] ++ [1#4, 2#4, 3#4, 4#4, 5#4, 6#4, 7#4, 8#4, 9#4].flatMap macroRound ++ macroFround

/-- The 40 commands that equal DECB: `ADDRK 10; ISHROW; ISUBB; IROUND 9; ...; IROUND 1; ADDRK 0` (R67, R143). -/
def decbListing : List Instr :=
  [.addrk 10#4, .ishrow, .isubb] ++ [9#4, 8#4, 7#4, 6#4, 5#4, 4#4, 3#4, 2#4, 1#4].flatMap macroIround ++ [.addrk 0#4]

/-- One line of a listing (R66 to R68). -/
inductive Line where
  | command (i : Instr)
  | round (r : BitVec 4)
  | fround
  | iround (r : BitVec 4)
  | keyBin (bs : List Byte)
  | keyStr (text : List Char)
  | ibuf (bs : List Byte)
  | st (b : Block)
  | keyreg (b : Block)
  | gf (a b : Byte)
  | reset
  deriving DecidableEq, Repr

/-- Commands as Issue moves. -/
def issues (is : List Instr) : List HostMove := is.map fun i => .issue (encode i)

/-- All 16 bytes of a block as WriteData moves. -/
def writeBlock (w : Window) (b : Block) : List HostMove := b.toList.zipIdx.map fun p => .writeData w p.2 p.1

/-- The characters of a text as code points (R68; a Lean `Char` is exactly a Unicode scalar value). -/
def codePoints (text : List Char) : List Elem := text.map fun c => BitVec.ofNat 21 c.toNat

/-- The host moves a line stands for (R67, R68). `ROUND r` and `IROUND r` with `r` outside 1..9, which the spec gives no
meaning, stand for the moves of their expansion (DESIGN CHOICE, log 23). -/
def Line.moves : Line → List HostMove
  | .command i => issues [i]
  | .round r => issues (macroRound r)
  | .fround => issues macroFround
  | .iround r => issues (macroIround r)
  | .keyBin bs => [.loadKey tagBin (bs.map (BitVec.setWidth 21))]
  | .keyStr text => [.loadKey tagStr (codePoints text)]
  | .ibuf bs => [.loadIbuf bs]
  | .st b => writeBlock .st b
  | .keyreg b => writeBlock .key b
  | .gf a b => [.writeReg 10 a.toNat, .writeReg 11 b.toNat]
  | .reset => [.hardReset]

/-- A listing, executed top to bottom (R66). -/
def listing (ls : List Line) : List HostMove := ls.flatMap Line.moves

/-- Commands executed one after another, each from the state the one before left (20_memory.md R50). -/
def execAll : List Instr → State → Result
  | [], s => .next s
  | i :: is, s =>
    match exec i s with
    | .next t => execAll is t
    | .fault r => .fault r
    | .refused r => .refused r

end Sys2Proof.Machine
end

