-- ==== Sys2Proof/Safety.lean ====
section
/-! DEFINITION. What the statements speak of: which command may raise which fault (60_exceptions.md R191), the invariants
of a core that the host drives by its moves, and runs of a script of moves. -/

namespace Sys2Proof.Machine

/-- The "yes" cells of R191, row by row. A legal command word never raises IllegalCommand (R196). -/
def mayRaise : Instr → List FaultCause
  | .keyld => [.invalidKeyFormat, .invalidKeyLength, .invalidKeyEncoding]
  | .unpad => [.invalidPadding]
  | .ecbe => [.invalidBlockSize]
  | .ecbd => [.invalidBlockSize]
  | .b64d => [.invalidBase64]
  | .encf => [.invalidKeyFormat, .invalidKeyLength, .invalidKeyEncoding]
  | .decf => [.invalidKeyFormat, .invalidKeyLength, .invalidKeyEncoding, .invalidBlockSize, .decryptionFailed]
  | .gfmul => []
  | .subb => []
  | .shrow => []
  | .mixc => []
  | .addrk _ => []
  | .isubb => []
  | .ishrow => []
  | .imixc => []
  | .keyexp => []
  | .pad => []
  | .encb => []
  | .decb => []
  | .b64e => []
  | .otoi => []
  | .rst => []

/-- The fault `e` is the one the command's function raises in the state: KEYLD by `normalize`, UNPAD by `unpad`, ECBE and
ECBD by the length, B64D by `b64dec`, ENCF and DECF by their pipelines, ADDRK by an index above 10 (the Faults line of
each command's rule). The other commands raise none. -/
def Raises (i : Instr) (s : State) (e : FaultCause) : Prop :=
  match i with
  | .addrk rnd => roundIndex rnd = none ∧ e = .illegalCommand
  | .keyld => normalize s.ktag s.keyin = .error e
  | .unpad => unpad s.ibuf = .error e
  | .ecbe => ecbEncrypt s.ibuf s.rk = .error e
  | .ecbd => ecbDecrypt s.ibuf s.rk = .error e
  | .b64d => b64Dec s.ibuf = .error e
  | .encf => encryptFile s.ibuf s.ktag s.keyin = .error e
  | .decf => decryptFile s.ibuf s.ktag s.keyin = .error e
  | .gfmul => False
  | .subb => False
  | .shrow => False
  | .mixc => False
  | .isubb => False
  | .ishrow => False
  | .imixc => False
  | .keyexp => False
  | .pad => False
  | .encb => False
  | .decb => False
  | .b64e => False
  | .otoi => False
  | .rst => False

/-- The faults a command word may raise: those of its command, or IllegalCommand where it selects none (R191). -/
def wordMayRaise (c : CmdWord) : List FaultCause :=
  match decode c with
  | .ok i => mayRaise i
  | .error _ => [.illegalCommand]

/-- The product of two polynomials over GF(2), bit `i` the coefficient of `x^i`, coefficients added modulo 2: what R81
multiplies before it takes the remainder. -/
def polyMul (a b : BitVec 16) : BitVec 16 :=
  (List.range 16).foldl (fun p i => if b.getLsbD i then p ^^^ (a <<< i) else p) 0#16

/-- What holds of a core at reset and after every move of the host. -/
structure Inv (s : State) : Prop where
  /-- "FAULT = 1 if and only if ERR != 0" (R20, R194). -/
  fault_iff_err : s.fault = true ↔ s.err ≠ none
  /-- FCMD is "0 when FAULT = 0" (R21). -/
  fcmd_zero : s.fault = false → s.fcmd = 0#16
  /-- After a fault "there is no payload ... and no size" (R193); the host cannot write them (R18, R23). -/
  fault_clears : s.fault = true → s.obuf = [] ∧ s.origSize = 0#64 ∧ s.encSize = 0#64
  /-- ERR is a fault that the command word in FCMD may raise (R191, R192, R199). -/
  err_of_fcmd : ∀ e, s.err = some e → e ∈ wordMayRaise s.fcmd
  /-- Buffers within capacity, key input legal for its tag (R16, R46, R47). -/
  memory : Memory.wf s = true

/-- The size registers are both 0, or ENC_SIZE is the ciphertext length of ORIG_SIZE raw bytes (R23, R172). -/
def SizeLaw (s : State) : Prop :=
  (s.origSize = 0#64 ∧ s.encSize = 0#64) ∨ s.encSize.toNat = fileSize s.origSize.toNat

/-- The state in which the host is about to make these moves and no others. -/
def withScript (ms : List HostMove) (s : State) : State := s.setHost ⟨ms, s.host.got⟩

/-- The whole of a script run, one step for each move. -/
def runScript (ms : List HostMove) (s : State) : Result := Sys2Proof.core.run ms.length (withScript ms s)

/-- The outcome is a next state of which `p` holds. -/
def nextIs (r : Result) (p : State → Bool) : Bool :=
  match r with
  | .next t => p t
  | .fault _ => false
  | .refused _ => false

/-- A step is safe if it ends in a next state: it is neither stopped nor outside the spec. -/
def Answers (r : Result) : Prop := ∃ t, r = .next t

end Sys2Proof.Machine
end

