-- ==== Sys2Proof/Certificates/Slice0/Obligations.lean ====
section
/-! DEFINITION. The statements for the provers. Each formalises the rules of spec/ its docstring names; OBLIGATIONS.json
lists them with their quotes. "Completes" means that `exec` answers a next state. -/

open Sys2Proof
open Sys2Proof.Machine

/-! ## Arithmetic and tables -/

/-- R81: `gmul` is the product of two polynomials over GF(2) with its remainder modulo 0x11b taken: product and result
differ by a multiple of 0x11b, and the result has degree below 8 because it is a byte. With R80: `xtime` is the
product by x, with the rule's five examples. -/
def Obligations.GmulIsThePolynomialProduct : Prop :=
  (∀ a b : Byte, ∃ q : Byte,
    polyMul (a.setWidth 16) (b.setWidth 16) = polyMul 0x11b#16 (q.setWidth 16) ^^^ (gmul a b).setWidth 16) ∧
  (∀ a : Byte, gmul a 0x02#8 = xtime a ∧
    (xtime a).toNat = if a.toNat < 128 then 2 * a.toNat else (2 * a.toNat - 256) ^^^ 0x1b) ∧
  xtime 0x57#8 = 0xae#8 ∧ xtime 0xae#8 = 0x47#8 ∧ xtime 0x80#8 = 0x1b#8 ∧ xtime 0xff#8 = 0xe5#8 ∧
  xtime 0x00#8 = 0x00#8

/-- R83: the laws of the field. -/
def Obligations.GmulObeysTheFieldLaws : Prop :=
  (∀ a b : Byte, gmul a b = gmul b a) ∧
  (∀ a b c : Byte, gmul a (gmul b c) = gmul (gmul a b) c) ∧
  (∀ a b c : Byte, gmul a (b ^^^ c) = gmul a b ^^^ gmul a c) ∧
  (∀ a : Byte, gmul a 0x00#8 = 0x00#8 ∧ gmul a 0x01#8 = a ∧ gmul a 0x02#8 = xtime a ∧
    gmul a 0x03#8 = xtime a ^^^ a) ∧
  (∀ a : Byte, a ≠ 0x00#8 → ∃! b : Byte, gmul a b = 0x01#8) ∧
  gmul 0x53#8 0xca#8 = 0x01#8 ∧ gmul 0x02#8 0x8d#8 = 0x01#8 ∧
  (∀ a b : Byte, gmul a b = 0x00#8 → a = 0x00#8 ∨ b = 0x00#8)

/-- R91, its second, independent definition: the printed SBOX is the affine map of the field inverse; it is a permutation
with no fixed point. -/
def Obligations.SboxIsTheAffineMapOfTheInverse : Prop :=
  (∀ a b : Byte, (gmul a b = 0x01#8 ∨ (a = 0x00#8 ∧ b = 0x00#8)) →
    sbox a = b ^^^ b.rotateLeft 1 ^^^ b.rotateLeft 2 ^^^ b.rotateLeft 3 ^^^ b.rotateLeft 4 ^^^ 0x63#8) ∧
  (∀ a b : Byte, sbox a = sbox b → a = b) ∧ (∀ b : Byte, ∃ a, sbox a = b) ∧ (∀ a : Byte, sbox a ≠ a)

/-- R92: INV_SBOX is the inverse permutation of SBOX. -/
def Obligations.InvSboxInvertsSbox : Prop :=
  ∀ a : Byte, invSbox (sbox a) = a ∧ sbox (invSbox a) = a

/-- R82: GFMUL completes with GFP the product of GFA and GFB and nothing else changed; it is ignored in the fault
state; a zero operand gives 0; twice is once. -/
def Obligations.GfmulWritesTheProduct : Prop :=
  encode .gfmul = 0x0001#16 ∧
  (∀ s : State, s.fault = false → exec .gfmul s = .next { s with gfp := gmul s.gfa s.gfb }) ∧
  (∀ s : State, s.fault = true → exec .gfmul s = .next s) ∧
  (∀ s : State, s.fault = false → execAll [.gfmul, .gfmul] s = exec .gfmul s) ∧
  (∀ a : Byte, gmul a 0x00#8 = 0x00#8 ∧ gmul 0x00#8 a = 0x00#8) ∧ gmul 0x57#8 0x83#8 = 0xc1#8

/-! ## The block primitives -/

/-- R93: SUBB completes with every byte of ST looked up in SBOX and nothing else changed. -/
def Obligations.SubbSubstitutesEveryByte : Prop :=
  encode .subb = 0x0010#16 ∧
  (∀ s : State, s.fault = false → exec .subb s = .next { s with
    st := #v[sbox s.st[0], sbox s.st[1], sbox s.st[2], sbox s.st[3], sbox s.st[4], sbox s.st[5], sbox s.st[6],
      sbox s.st[7], sbox s.st[8], sbox s.st[9], sbox s.st[10], sbox s.st[11], sbox s.st[12], sbox s.st[13],
      sbox s.st[14], sbox s.st[15]] }) ∧
  (∀ s : State, s.fault = true → exec .subb s = .next s) ∧
  subBytes zeroBlock = Vector.replicate 16 0x63#8 ∧
  subBytes #v[0x00#8, 0x01#8, 0x02#8, 0x03#8, 0x04#8, 0x05#8, 0x06#8, 0x07#8, 0x08#8, 0x09#8, 0x0a#8, 0x0b#8, 0x0c#8,
      0x0d#8, 0x0e#8, 0x0f#8] =
    #v[0x63#8, 0x7c#8, 0x77#8, 0x7b#8, 0xf2#8, 0x6b#8, 0x6f#8, 0xc5#8, 0x30#8, 0x01#8, 0x67#8, 0x2b#8, 0xfe#8, 0xd7#8,
      0xab#8, 0x76#8]

/-- R94: SHROW completes with `new S(r, c) = old S(r, (c + r) mod 4)`, byte (r, c) being ST[r + 4c] (R90), which is the
index permutation the rule prints; row 0 does not move; four SHROW are the identity. -/
def Obligations.ShrowRotatesTheRows : Prop :=
  encode .shrow = 0x0011#16 ∧
  (∀ s : State, s.fault = false → exec .shrow s = .next { s with
    st := #v[s.st[0], s.st[5], s.st[10], s.st[15], s.st[4], s.st[9], s.st[14], s.st[3], s.st[8], s.st[13], s.st[2],
      s.st[7], s.st[12], s.st[1], s.st[6], s.st[11]] }) ∧
  (∀ s : State, s.fault = true → exec .shrow s = .next s) ∧
  (∀ (b : Block) (r c : Fin 4),
    (shiftRows b)[r.val + 4 * c.val] = b[r.val + 4 * ((c.val + r.val) % 4)]) ∧
  (∀ s : State, s.fault = false → execAll [.shrow, .shrow, .shrow, .shrow] s = .next s)

/-- R95, R96: MIXC completes with every column multiplied by MIX, as R95 writes it out for one column, and nothing else
changed; a column of equal bytes is unchanged; MIXC is linear. -/
def Obligations.MixcMultipliesTheColumns : Prop :=
  encode .mixc = 0x0012#16 ∧
  (∀ s : State, s.fault = false → ∃ o : Block, exec .mixc s = .next { s with st := o } ∧
    ∀ (c : Fin 4) (a0 a1 a2 a3 : Byte), a0 = s.st[4 * c.val] → a1 = s.st[4 * c.val + 1] →
      a2 = s.st[4 * c.val + 2] → a3 = s.st[4 * c.val + 3] →
      o[4 * c.val] = xtime a0 ^^^ (xtime a1 ^^^ a1) ^^^ a2 ^^^ a3 ∧
      o[4 * c.val + 1] = a0 ^^^ xtime a1 ^^^ (xtime a2 ^^^ a2) ^^^ a3 ∧
      o[4 * c.val + 2] = a0 ^^^ a1 ^^^ xtime a2 ^^^ (xtime a3 ^^^ a3) ∧
      o[4 * c.val + 3] = (xtime a0 ^^^ a0) ^^^ a1 ^^^ a2 ^^^ xtime a3) ∧
  (∀ s : State, s.fault = true → exec .mixc s = .next s) ∧
  (∀ s t : Block, mixColumns (xor16 s t) = xor16 (mixColumns s) (mixColumns t)) ∧
  (∀ (s : Block) (c : Fin 4), s[4 * c.val + 1] = s[4 * c.val] → s[4 * c.val + 2] = s[4 * c.val] →
    s[4 * c.val + 3] = s[4 * c.val] →
    (mixColumns s)[4 * c.val] = s[4 * c.val] ∧ (mixColumns s)[4 * c.val + 1] = s[4 * c.val] ∧
    (mixColumns s)[4 * c.val + 2] = s[4 * c.val] ∧ (mixColumns s)[4 * c.val + 3] = s[4 * c.val])

/-- R97, with R61: `ADDRK rnd` completes for every rnd 0 to 10 with ST xored byte by byte with RK[rnd] and nothing else
changed; it is its own inverse; with the zero RK of reset ST is unchanged; its word with rnd 11 to 15 decodes to
nothing and raises IllegalCommand. (What the model answers for an ill-formed `ADDRK` as syntax is its own choice,
log 10, and is not stated here.) -/
def Obligations.AddrkXorsTheRoundKey : Prop :=
  (∀ (s : State) (r : Fin 11), s.fault = false →
    exec (.addrk (BitVec.ofNat 4 r.val)) s = .next { s with st := Vector.ofFn fun i => s.st[i] ^^^ s.rk[r][i] }) ∧
  (∀ (s : State) (rnd : BitVec 4), s.fault = true → exec (.addrk rnd) s = .next s) ∧
  (∀ (s : State) (r : Fin 11), s.fault = false →
    execAll [.addrk (BitVec.ofNat 4 r.val), .addrk (BitVec.ofNat 4 r.val)] s = .next s) ∧
  (∀ (s : State) (r : Fin 11), s.fault = false → s.rk = zeroRoundKeys →
    exec (.addrk (BitVec.ofNat 4 r.val)) s = .next s) ∧
  (∀ r : Nat, r ≤ 10 → encode (.addrk (BitVec.ofNat 4 r)) = BitVec.ofNat 16 (0x0013 + r * 256)) ∧
  (∀ (s : State) (r : Nat), 11 ≤ r → r ≤ 15 → s.fault = false →
    moveIssue (BitVec.ofNat 16 (0x0013 + r * 256)) s =
      .next (enterFault .illegalCommand (BitVec.ofNat 16 (0x0013 + r * 256)) s))

/-- R98, R99: ISUBB completes with every byte of ST looked up in INV_SBOX, ISHROW with the index permutation R99 prints;
nothing else changes. -/
def Obligations.IsubbAndIshrowComplete : Prop :=
  encode .isubb = 0x0014#16 ∧ encode .ishrow = 0x0015#16 ∧
  (∀ s : State, s.fault = false → exec .isubb s = .next { s with
    st := #v[invSbox s.st[0], invSbox s.st[1], invSbox s.st[2], invSbox s.st[3], invSbox s.st[4], invSbox s.st[5],
      invSbox s.st[6], invSbox s.st[7], invSbox s.st[8], invSbox s.st[9], invSbox s.st[10], invSbox s.st[11],
      invSbox s.st[12], invSbox s.st[13], invSbox s.st[14], invSbox s.st[15]] }) ∧
  (∀ s : State, s.fault = false → exec .ishrow s = .next { s with
    st := #v[s.st[0], s.st[13], s.st[10], s.st[7], s.st[4], s.st[1], s.st[14], s.st[11], s.st[8], s.st[5], s.st[2],
      s.st[15], s.st[12], s.st[9], s.st[6], s.st[3]] }) ∧
  (∀ s : State, s.fault = true → exec .isubb s = .next s ∧ exec .ishrow s = .next s) ∧
  (∀ s : State, s.fault = false → execAll [.ishrow, .isubb] s = execAll [.isubb, .ishrow] s ∧
    execAll [.shrow, .subb] s = execAll [.subb, .shrow] s) ∧
  (∀ (b : Block) (r c : Fin 4),
    (invShiftRows b)[r.val + 4 * ((c.val + r.val) % 4)] = b[r.val + 4 * c.val])

/-- R100, R101: the printed INV_MIX times MIX is the identity matrix over GF(2^8), and IMIXC completes with every column
multiplied by INV_MIX and nothing else changed. -/
def Obligations.ImixcMultipliesByTheInverseMatrix : Prop :=
  encode .imixc = 0x0016#16 ∧
  (∀ r c : Fin 4,
    gmul (coef invMixMatrix r.val 0) (coef mixMatrix 0 c.val) ^^^ gmul (coef invMixMatrix r.val 1) (coef mixMatrix 1 c.val)
      ^^^ gmul (coef invMixMatrix r.val 2) (coef mixMatrix 2 c.val)
      ^^^ gmul (coef invMixMatrix r.val 3) (coef mixMatrix 3 c.val) = if r = c then 0x01#8 else 0x00#8) ∧
  (∀ s : State, s.fault = false → ∃ o : Block, exec .imixc s = .next { s with st := o } ∧
    ∀ (c : Fin 4) (a0 a1 a2 a3 : Byte), a0 = s.st[4 * c.val] → a1 = s.st[4 * c.val + 1] →
      a2 = s.st[4 * c.val + 2] → a3 = s.st[4 * c.val + 3] →
      o[4 * c.val] = gmul 0x0e#8 a0 ^^^ gmul 0x0b#8 a1 ^^^ gmul 0x0d#8 a2 ^^^ gmul 0x09#8 a3 ∧
      o[4 * c.val + 1] = gmul 0x09#8 a0 ^^^ gmul 0x0e#8 a1 ^^^ gmul 0x0b#8 a2 ^^^ gmul 0x0d#8 a3 ∧
      o[4 * c.val + 2] = gmul 0x0d#8 a0 ^^^ gmul 0x09#8 a1 ^^^ gmul 0x0e#8 a2 ^^^ gmul 0x0b#8 a3 ∧
      o[4 * c.val + 3] = gmul 0x0b#8 a0 ^^^ gmul 0x0d#8 a1 ^^^ gmul 0x09#8 a2 ^^^ gmul 0x0e#8 a3) ∧
  (∀ s : State, s.fault = true → exec .imixc s = .next s)

/-- The corner cases of R98, R99, R101: each inverse command undoes its forward command and the other way round, on the
whole state. -/
def Obligations.InverseCommandsUndoForwardCommands : Prop :=
  ∀ s : State, s.fault = false →
    execAll [.subb, .isubb] s = .next s ∧ execAll [.isubb, .subb] s = .next s ∧
    execAll [.shrow, .ishrow] s = .next s ∧ execAll [.ishrow, .shrow] s = .next s ∧
    execAll [.mixc, .imixc] s = .next s ∧ execAll [.imixc, .mixc] s = .next s

/-! ## The key schedule and the key codec -/

/-- R111: RCON[1..10] are the successive powers of x, the entries never read as the rule fixes them. R112: `rot_word`
rotates left by one byte and `sub_word` is SBOX on each byte. R113: the 44 words follow the recurrence of step 2 from the four words of the key, with the rotation by one
byte, SBOX on each byte and RCON on the first byte of every fourth word, and round key r is the words 4r to
4r+3. -/
def Obligations.ExpandFollowsTheRecurrence : Prop :=
  (List.range 16).map rcon =
    [0x00#8, 0x01#8, 0x02#8, 0x04#8, 0x08#8, 0x10#8, 0x20#8, 0x40#8, 0x80#8, 0x1b#8, 0x36#8, 0x6c#8, 0xd8#8, 0xab#8,
      0x4d#8, 0x9a#8] ∧
  (∀ j, 1 ≤ j → j < 10 → rcon (j + 1) = xtime (rcon j)) ∧
  (∀ b0 b1 b2 b3 : Byte, rotWord #v[b0, b1, b2, b3] = #v[b1, b2, b3, b0] ∧
    subWord #v[b0, b1, b2, b3] = #v[sbox b0, sbox b1, sbox b2, sbox b3]) ∧
  ∀ key : Block,
    (∀ (i j : Fin 4), (scheduleWord key i.val)[j.val] = key[4 * i.val + j.val]) ∧
    (∀ (i : Nat) (w p : KeyWord), 4 ≤ i → i < 44 → w = scheduleWord key (i - 4) → p = scheduleWord key (i - 1) →
      scheduleWord key i =
        if i % 4 = 0 then
          #v[w[0] ^^^ (sbox p[1] ^^^ rcon (i / 4)), w[1] ^^^ sbox p[2], w[2] ^^^ sbox p[3], w[3] ^^^ sbox p[0]]
        else #v[w[0] ^^^ p[0], w[1] ^^^ p[1], w[2] ^^^ p[2], w[3] ^^^ p[3]]) ∧
    (∀ (r : Fin 11) (j k : Fin 4), (expand key)[r][4 * j.val + k.val] = (scheduleWord key (4 * r.val + j.val))[k.val])

/-- R114: KEYEXP completes with RK the schedule of KEY and nothing else changed; then RK[0] = KEY; issuing it again
changes nothing; after reset RK is not all zero. -/
def Obligations.KeyexpInstallsTheSchedule : Prop :=
  encode .keyexp = 0x0020#16 ∧
  (∀ s : State, s.fault = false → exec .keyexp s = .next { s with rk := expand s.key }) ∧
  (∀ s : State, s.fault = true → exec .keyexp s = .next s) ∧
  (∀ key : Block, (expand key)[0] = key) ∧
  (∀ s : State, s.fault = false → execAll [.keyexp, .keyexp] s = exec .keyexp s) ∧
  expand zeroBlock ≠ zeroRoundKeys

/-- R121: the eight cases of `normalize`, each with its condition on the tag and the elements. -/
def Obligations.NormalizeDecidesByTagAndLength : Prop :=
  (∀ es : List Elem, es.length = 16 → ∃ k, normalize tagBin es = .ok k ∧
    ∀ i (h : i < 16) (h' : i < es.length), es[i].toNat < 256 → k[i].toNat = es[i].toNat) ∧
  (∀ es : List Elem, es.length ≠ 16 → normalize tagBin es = .error .invalidKeyLength) ∧
  (∀ es : List Elem, es.length = 32 → (∀ u ∈ es, isHexDigit u = true) → normalize tagStr es = .ok (hexDecode es)) ∧
  (∀ es : List Elem, es.length = 32 → (∃ u ∈ es, isHexDigit u = false) →
    normalize tagStr es = .error .invalidKeyEncoding) ∧
  (∀ es : List Elem, es.length = 16 → (∀ u ∈ es, u.toNat < 0x80) → ∃ k, normalize tagStr es = .ok k ∧
    ∀ i (h : i < 16) (h' : i < es.length), k[i].toNat = es[i].toNat) ∧
  (∀ es : List Elem, es.length = 16 → (∃ u ∈ es, 0x80 ≤ u.toNat) → normalize tagStr es = .error .invalidKeyLength) ∧
  (∀ es : List Elem, es.length ≠ 16 → es.length ≠ 32 → normalize tagStr es = .error .invalidKeyFormat) ∧
  (∀ (tag : BitVec 2) (es : List Elem), tag = 2#2 ∨ tag = 3#2 → normalize tag es = .error .invalidKeyFormat)

/-- R122: a hex key decodes two digits to a byte, the first digit of each pair the high nibble, upper and lower case
alike, and no value overflows the byte. -/
def Obligations.HexKeysReadTheHighDigitFirst : Prop :=
  (∀ (es : List Elem), es.length = 32 → (∀ u ∈ es, isHexDigit u = true) →
    ∃ k, normalize tagStr es = .ok k ∧
      ∀ i (h : i < 16) (h0 : 2 * i < es.length) (h1 : 2 * i + 1 < es.length),
        k[i].toNat = 16 * hexVal es[2 * i] + hexVal es[2 * i + 1]) ∧
  (∀ d : Fin 10, isHexDigit (BitVec.ofNat 21 (0x30 + d.val)) = true ∧ hexVal (BitVec.ofNat 21 (0x30 + d.val)) = d.val) ∧
  (∀ d : Fin 6, isHexDigit (BitVec.ofNat 21 (0x61 + d.val)) = true ∧ hexVal (BitVec.ofNat 21 (0x61 + d.val)) = 10 + d.val ∧
    isHexDigit (BitVec.ofNat 21 (0x41 + d.val)) = true ∧ hexVal (BitVec.ofNat 21 (0x41 + d.val)) = 10 + d.val)

/-- R123: a 16-character text key is accepted exactly when its UTF-8 encoding has 16 bytes, and is then that encoding;
otherwise the encoding has 17 to 64 bytes and the fault is InvalidKeyLength. The encoding has 16 bytes if and only if
every code point is below 0x80, and the key then normalises as its bytes do. -/
def Obligations.TextKeysAreTheirUtf8Bytes : Prop :=
  ∀ es : List Elem, es.length = 16 →
    ((utf8Text es).length = 16 → ∃ k, normalize tagStr es = .ok k ∧ k.toList = utf8Text es) ∧
    ((utf8Text es).length ≠ 16 → normalize tagStr es = .error .invalidKeyLength ∧
      17 ≤ (utf8Text es).length ∧ (utf8Text es).length ≤ 64) ∧
    ((utf8Text es).length = 16 ↔ ∀ u ∈ es, u.toNat < 0x80) ∧
    ((∀ u ∈ es, u.toNat < 0x80) → normalize tagStr es = normalize tagBin es) ∧
    (∀ u : Elem, (utf8 u).length =
      if u.toNat < 0x80 then 1 else if u.toNat < 0x800 then 2 else if u.toNat < 0x10000 then 3 else 4)

/-- R125: normalising a normalised key, taken as 16 bytes, gives it back. -/
def Obligations.NormalizeIsIdempotent : Prop :=
  ∀ (tag : BitVec 2) (es : List Elem) (k : Block), normalize tag es = .ok k →
    normalize tagBin (k.toList.map (BitVec.setWidth 21)) = .ok k

/-- R124: KEYLD completes with KEY the normalised key and nothing else changed, RK and the key input included; where
`normalize` raises, KEYLD is the fault entry of R193 with FCMD = 0x0021, and KEY keeps its value. -/
def Obligations.KeyldLoadsTheNormalisedKey : Prop :=
  encode .keyld = 0x0021#16 ∧
  (∀ (s : State) (k : Block), s.fault = false → normalize s.ktag s.keyin = .ok k →
    exec .keyld s = .next { s with key := k }) ∧
  (∀ (s : State) (e : FaultCause), s.fault = false → normalize s.ktag s.keyin = .error e →
    exec .keyld s = .next { s with
      fault := true, err := some e, fcmd := 0x0021#16, obuf := [], st := Vector.replicate 16 0x00#8,
      origSize := 0#64, encSize := 0#64 }) ∧
  (∀ s : State, s.fault = true → exec .keyld s = .next s) ∧
  (∀ es : List Elem, normalize tagBin es = .error .invalidKeyLength ↔ es.length ≠ 16)

/-! ## The padder -/

/-- R130: `pad` appends 1 to 16 bytes, each of the pad length, up to the next multiple of 16 strictly greater than the
length; on a multiple of 16 it appends sixteen 0x10. R132: `unpad` succeeds exactly on a result followed by p bytes of
value p, p in 1..16, and returns that result; every other sequence, the empty one included, is InvalidPadding; no
multiple of 16 is asked for. -/
def Obligations.PadAppendsAndUnpadChecksThePadBytes : Prop :=
  (∀ d : List Byte, (pad d).length = 16 * (d.length / 16 + 1)) ∧
  (∀ d : List Byte, ∃ p : Nat, 1 ≤ p ∧ p ≤ 16 ∧ (d.length % 16 = 0 → p = 16) ∧
    pad d = d ++ List.replicate p (BitVec.ofNat 8 p)) ∧
  (∀ d r : List Byte, unpad d = .ok r ↔
    ∃ p : Nat, 1 ≤ p ∧ p ≤ 16 ∧ d = r ++ List.replicate p (BitVec.ofNat 8 p)) ∧
  (∀ (d : List Byte) (e : FaultCause), unpad d = .error e → e = .invalidPadding)

/-- R134: `unpad` undoes `pad`; `pad` undoes `unpad` on a multiple of 16; `pad` is injective. -/
def Obligations.PadAndUnpadAreInverse : Prop :=
  (∀ d : List Byte, unpad (pad d) = .ok d) ∧
  (∀ d r : List Byte, unpad d = .ok r → d.length % 16 = 0 → pad r = d) ∧
  (∀ a b : List Byte, pad a = pad b → a = b)

/-- R131, R133: PAD completes with OBUF the padded IBUF and nothing else changed, for every IBUF whose padded length is
below 2^LEN_W; UNPAD completes with OBUF the unpadded IBUF where IBUF is some r followed by p bytes p, and is the
fault entry with code 5 and FCMD = 0x0031 where `unpad` raises. The lengths below 2^LEN_W are those the spec defines
(R6's default, log 3, log 4). -/
def Obligations.PadAndUnpadCommandsComplete : Prop :=
  encode .pad = 0x0030#16 ∧ encode .unpad = 0x0031#16 ∧
  (∀ s : State, s.fault = false → 16 * (s.ibuf.length / 16 + 1) < 2 ^ 64 →
    exec .pad s = .next { s with obuf := pad s.ibuf }) ∧
  (∀ (s : State) (r : List Byte) (p : Nat), s.fault = false → s.ibuf.length < 2 ^ 64 → 1 ≤ p → p ≤ 16 →
    s.ibuf = r ++ List.replicate p (BitVec.ofNat 8 p) → exec .unpad s = .next { s with obuf := r }) ∧
  (∀ (s : State) (e : FaultCause), s.fault = false → unpad s.ibuf = .error e →
    exec .unpad s = .next (enterFault .invalidPadding 0x0031#16 s)) ∧
  (∀ s : State, s.fault = true → exec .pad s = .next s ∧ exec .unpad s = .next s)

/-! ## The block engine -/

/-- R141, R143: ENCB and DECB complete with ST the encrypted, the decrypted block under RK as it stands and nothing else
changed; ENCB equals the 40 commands `ADDRK 0; ROUND 1; ...; ROUND 9; FROUND` in effect on the whole state, and DECB
its own 40 commands (R67); both are ignored in the fault state. -/
def Obligations.EncbAndDecbEqualTheirRoundCommands : Prop :=
  encode .encb = 0x0040#16 ∧ encode .decb = 0x0041#16 ∧
  encbListing.length = 40 ∧ decbListing.length = 40 ∧
  (∀ s : State, s.fault = false →
    exec .encb s = .next { s with st := encryptBlock s.st s.rk } ∧
    execAll encbListing s = .next { s with st := encryptBlock s.st s.rk } ∧
    exec .decb s = .next { s with st := decryptBlock s.st s.rk } ∧
    execAll decbListing s = .next { s with st := decryptBlock s.st s.rk }) ∧
  (∀ s : State, s.fault = true → exec .encb s = .next s ∧ exec .decb s = .next s)

/-- R142: decryption is the inverse of encryption under every set of round keys, of a block both ways and of the commands
ENCB and DECB on the whole state. -/
def Obligations.DecryptionInvertsEncryption : Prop :=
  (∀ (b : Block) (rk : RoundKeys), decryptBlock (encryptBlock b rk) rk = b) ∧
  (∀ (b : Block) (rk : RoundKeys), encryptBlock (decryptBlock b rk) rk = b) ∧
  (∀ s : State, s.fault = false → execAll [.encb, .decb] s = .next s ∧ execAll [.decb, .encb] s = .next s)

/-- R144: the chain succeeds exactly on a multiple of 16 bytes; its result has the input's length, and its block k is the
cipher on the input's block k alone. -/
def Obligations.EcbWorksBlockByBlock : Prop :=
  ∀ (d : List Byte) (rk : RoundKeys),
    (d.length % 16 ≠ 0 → ecbEncrypt d rk = .error .invalidBlockSize ∧ ecbDecrypt d rk = .error .invalidBlockSize) ∧
    (d.length % 16 = 0 → ∃ c p : List Byte, ecbEncrypt d rk = .ok c ∧ ecbDecrypt d rk = .ok p ∧
      c.length = d.length ∧ p.length = d.length ∧
      ∀ k, k < d.length / 16 →
        slice c (16 * k) 16 = (encryptBlock (Block.ofBytes (slice d (16 * k) 16)) rk).toList ∧
        slice p (16 * k) 16 = (decryptBlock (Block.ofBytes (slice d (16 * k) 16)) rk).toList)

/-- R147: equal plaintext blocks give equal ciphertext blocks; the chain decrypts what it encrypts; it distributes over
concatenation at block boundaries; one block's encryption is a permutation. -/
def Obligations.EcbHasNoChaining : Prop :=
  (∀ (d c : List Byte) (rk : RoundKeys) (i j : Nat), ecbEncrypt d rk = .ok c → i < d.length / 16 →
    j < d.length / 16 → slice d (16 * i) 16 = slice d (16 * j) 16 → slice c (16 * i) 16 = slice c (16 * j) 16) ∧
  (∀ (d c : List Byte) (rk : RoundKeys), ecbEncrypt d rk = .ok c → ecbDecrypt c rk = .ok d) ∧
  (∀ (a b ca cb : List Byte) (rk : RoundKeys), ecbEncrypt a rk = .ok ca → ecbEncrypt b rk = .ok cb →
    ecbEncrypt (a ++ b) rk = .ok (ca ++ cb)) ∧
  (∀ rk : RoundKeys, Function.Bijective fun b => encryptBlock b rk)

/-- R145, R146: ECBE and ECBD complete on every IBUF whose length is a multiple of 16 (and below 2^LEN_W) with OBUF the
chained result, ST zero and nothing else changed; on any other IBUF they are the fault entry with code 4. The lengths
below 2^LEN_W are those the spec defines (R6's default, log 3, log 4). -/
def Obligations.EcbeAndEcbdComplete : Prop :=
  encode .ecbe = 0x0042#16 ∧ encode .ecbd = 0x0043#16 ∧
  (∀ s : State, s.fault = false → s.ibuf.length % 16 = 0 → s.ibuf.length < 2 ^ 64 →
    ∃ c p : List Byte, ecbEncrypt s.ibuf s.rk = .ok c ∧ ecbDecrypt s.ibuf s.rk = .ok p ∧
      exec .ecbe s = .next { s with obuf := c, st := Vector.replicate 16 0x00#8 } ∧
      exec .ecbd s = .next { s with obuf := p, st := Vector.replicate 16 0x00#8 }) ∧
  (∀ s : State, s.fault = false → s.ibuf.length % 16 ≠ 0 →
    exec .ecbe s = .next (enterFault .invalidBlockSize 0x0042#16 s) ∧
    exec .ecbd s = .next (enterFault .invalidBlockSize 0x0043#16 s)) ∧
  (∀ s : State, s.fault = true → exec .ecbe s = .next s ∧ exec .ecbd s = .next s)

/-! ## Base64 -/

/-- R155: the alphabet, and its inverse map, which is undefined outside it. R156: every full group of three bytes gives four characters, the sextets of its 24 bits with the first byte most
significant; a tail of one or two bytes gives two or three characters and `=` signs, its unused bits zero. -/
def Obligations.B64EncodesGroupsOfThree : Prop :=
  (∀ v : BitVec 6, (b64Char v).toNat =
    if v.toNat < 26 then 0x41 + v.toNat else if v.toNat < 52 then 0x61 + (v.toNat - 26)
    else if v.toNat < 62 then 0x30 + (v.toNat - 52) else if v.toNat = 62 then 0x2b else 0x2f) ∧
  (∀ (ch : Byte) (v : BitVec 6), b64Val ch = some v ↔ b64Char v = ch) ∧
  b64Val 0x3d#8 = none ∧
  ∀ d : List Byte,
    (b64Enc d).length = 4 * ((d.length + 2) / 3) ∧
    (∀ g (v : Nat), g < d.length / 3 →
      v = (d.getD (3 * g) 0).toNat * 65536 + (d.getD (3 * g + 1) 0).toNat * 256 + (d.getD (3 * g + 2) 0).toNat →
      slice (b64Enc d) (4 * g) 4 =
        [b64Char (BitVec.ofNat 6 (v / 262144)), b64Char (BitVec.ofNat 6 (v / 4096)), b64Char (BitVec.ofNat 6 (v / 64)),
          b64Char (BitVec.ofNat 6 v)]) ∧
    (∀ b0 : Nat, d.length % 3 = 1 → b0 = (d.getD (d.length - 1) 0).toNat →
      (b64Enc d).drop (4 * (d.length / 3)) =
        [b64Char (BitVec.ofNat 6 (b0 / 4)), b64Char (BitVec.ofNat 6 (b0 * 16)), 0x3d#8, 0x3d#8]) ∧
    (∀ b0 b1 : Nat, d.length % 3 = 2 → b0 = (d.getD (d.length - 2) 0).toNat → b1 = (d.getD (d.length - 1) 0).toNat →
      (b64Enc d).drop (4 * (d.length / 3)) =
        [b64Char (BitVec.ofNat 6 (b0 / 4)), b64Char (BitVec.ofNat 6 (b0 * 16 + b1 / 16)), b64Char (BitVec.ofNat 6 (b1 * 4)),
          0x3d#8])

/-- R158: the decoder accepts exactly the outputs of the encoder and gives their source back; everything else is
InvalidBase64. -/
def Obligations.B64DecodeInvertsEncode : Prop :=
  (∀ b : List Byte, b64Dec (b64Enc b) = .ok b) ∧
  (∀ t b : List Byte, b64Dec t = .ok b → b64Enc b = t) ∧
  (∀ (t : List Byte) (e : FaultCause), b64Dec t = .error e → e = .invalidBase64)

/-- R157, R159: B64E completes with OBUF the encoded IBUF and nothing else changed, where the text's length is below
2^LEN_W; B64D completes with OBUF the decoded bytes on every text the encoder makes, and is the fault entry with
code 6 and FCMD = 0x0051 where `b64dec` raises. The lengths below 2^LEN_W are those the spec defines (R6's default,
log 3, log 4). -/
def Obligations.Base64CommandsComplete : Prop :=
  encode .b64e = 0x0050#16 ∧ encode .b64d = 0x0051#16 ∧
  (∀ s : State, s.fault = false → 4 * ((s.ibuf.length + 2) / 3) < 2 ^ 64 →
    exec .b64e s = .next { s with obuf := b64Enc s.ibuf }) ∧
  (∀ (s : State) (b : List Byte), s.fault = false → s.ibuf.length < 2 ^ 64 → s.ibuf = b64Enc b →
    exec .b64d s = .next { s with obuf := b }) ∧
  (∀ (s : State) (e : FaultCause), s.fault = false → b64Dec s.ibuf = .error e →
    exec .b64d s = .next (enterFault .invalidBase64 0x0051#16 s)) ∧
  (∀ s : State, s.fault = true → exec .b64e s = .next s ∧ exec .b64d s = .next s)

/-! ## The pipelines -/

/-- R172: the ciphertext of n raw bytes has `16 * ((4 * ((n + 2) div 3)) div 16 + 1)` bytes, with the rule's examples.
R160: the lengths of base64 text and of what it decodes to, and that its bytes are below 0x80. -/
def Obligations.LengthsFollowTheSizeLaws : Prop :=
  (∀ (raw : List Byte) (tag : BitVec 2) (es : List Elem) (r : FileResult), encryptFile raw tag es = .ok r →
    r.payload.length = 16 * (4 * ((raw.length + 2) / 3) / 16 + 1)) ∧
  [0, 5, 9, 10, 11, 12, 13].map fileSize = [16, 16, 16, 32, 32, 32, 32] ∧
  (∀ b : List Byte, (b64Enc b).length = 4 * ((b.length + 2) / 3)) ∧
  (∀ t b : List Byte, b64Dec t = .ok b → b.length = 3 * (t.length / 4) - t.count 0x3d#8) ∧
  (∀ b : List Byte, ∀ ch ∈ b64Enc b, ch.toNat < 0x80)

/-- R170, R171: with a good key and a ciphertext length below 2^LEN_W, ENCF completes: OBUF is the ECB encryption of the
padded base64 text under the schedule of the normalised key, ORIG_SIZE the raw length, ENC_SIZE the ciphertext
length, KEY and RK the key and its schedule, ST zero, nothing else changed; where `normalize` raises, ENCF is the
fault entry with that code and FCMD = 0x0060. The lengths below 2^LEN_W are those the spec defines (R6's default,
log 3, log 4). -/
def Obligations.EncfEncryptsTheFile : Prop :=
  encode .encf = 0x0060#16 ∧
  (∀ (s : State) (k : Block), s.fault = false → normalize s.ktag s.keyin = .ok k →
    fileSize s.ibuf.length < 2 ^ 64 →
    ∃ c : List Byte, ecbEncrypt (pad (b64Enc s.ibuf)) (expand k) = .ok c ∧
      exec .encf s = .next { s with
        obuf := c, origSize := BitVec.ofNat 64 s.ibuf.length, encSize := BitVec.ofNat 64 c.length,
        key := k, rk := expand k, st := Vector.replicate 16 0x00#8 }) ∧
  (∀ (s : State) (e : FaultCause), s.fault = false → normalize s.ktag s.keyin = .error e →
    exec .encf s = .next (enterFault e 0x0060#16 s)) ∧
  (∀ s : State, s.fault = true → exec .encf s = .next s)

/-- R171, corner cases: ENCF has the same effect on OBUF, KEY, RK and ST as KEYLD; KEYEXP; B64E; OTOI; PAD; OTOI; ECBE,
which differs in leaving IBUF overwritten and the sizes untouched. -/
def Obligations.EncfEqualsTheStagedCommands : Prop :=
  ∀ (s : State) (k : Block), s.fault = false → normalize s.ktag s.keyin = .ok k → fileSize s.ibuf.length < 2 ^ 64 →
    ∃ t u : State, exec .encf s = .next t ∧
      execAll [.keyld, .keyexp, .b64e, .otoi, .pad, .otoi, .ecbe] s = .next u ∧
      u.obuf = t.obuf ∧ u.key = t.key ∧ u.rk = t.rk ∧ u.st = t.st ∧ t.ibuf = s.ibuf ∧
      u.ibuf = pad (b64Enc s.ibuf) ∧ u.origSize = s.origSize ∧ u.encSize = s.encSize ∧
      u.fault = false ∧ t.fault = false ∧ u.fcmd = t.fcmd

/-- R173, R174: DECF completes where every stage succeeds, with OBUF the raw bytes, ORIG_SIZE their length, ENC_SIZE the
ciphertext length, KEY and RK the key and its schedule, ST zero, nothing else changed. Its checks in order: a key
fault comes first; with a good key a ragged IBUF is InvalidBlockSize; then a failure of `unpad` and a failure of
`b64dec` are both DecryptionFailed; each is the fault entry with FCMD = 0x0061. The lengths below 2^LEN_W are those the
spec defines (R6's default, log 3, log 4). -/
def Obligations.DecfDecryptsTheFile : Prop :=
  encode .decf = 0x0061#16 ∧
  (∀ (s : State) (k : Block) (p b raw : List Byte), s.fault = false → s.ibuf.length < 2 ^ 64 →
    normalize s.ktag s.keyin = .ok k → ecbDecrypt s.ibuf (expand k) = .ok p → unpad p = .ok b →
    b64Dec b = .ok raw →
    exec .decf s = .next { s with
      obuf := raw, origSize := BitVec.ofNat 64 raw.length, encSize := BitVec.ofNat 64 s.ibuf.length,
      key := k, rk := expand k, st := Vector.replicate 16 0x00#8 }) ∧
  (∀ (s : State) (e : FaultCause), s.fault = false → normalize s.ktag s.keyin = .error e →
    exec .decf s = .next (enterFault e 0x0061#16 s)) ∧
  (∀ (s : State) (k : Block), s.fault = false → normalize s.ktag s.keyin = .ok k → s.ibuf.length % 16 ≠ 0 →
    exec .decf s = .next (enterFault .invalidBlockSize 0x0061#16 s)) ∧
  (∀ (s : State) (k : Block) (p : List Byte), s.fault = false → normalize s.ktag s.keyin = .ok k →
    ecbDecrypt s.ibuf (expand k) = .ok p →
    ((∃ e, unpad p = .error e) ∨ (∃ b e, unpad p = .ok b ∧ b64Dec b = .error e)) →
    exec .decf s = .next (enterFault .decryptionFailed 0x0061#16 s)) ∧
  (∀ s : State, s.fault = true → exec .decf s = .next s)

/-- R199: codes 5 and 6 never appear with FCMD = 0x0061; two DECF that fail after the ECB step, one in `unpad` and one
in `b64dec`, on inputs of the same core but for IBUF, leave states that differ in IBUF alone; UNPAD and B64D report
codes 5 and 6 themselves; a key fault or a ragged IBUF is never folded into DecryptionFailed. -/
def Obligations.DecfTellsNoSubStep : Prop :=
  (∀ s t : State, s.fault = false → exec .decf s = .next t → t.fault = true →
    t.fcmd = 0x0061#16 ∧ t.err ≠ some .invalidPadding ∧ t.err ≠ some .invalidBase64 ∧
    (t.err = some .decryptionFailed → s.ibuf.length % 16 = 0 ∧ ∃ k, normalize s.ktag s.keyin = .ok k)) ∧
  (∀ (s : State) (k : Block) (c1 c2 p1 p2 b : List Byte) (e1 e2 : FaultCause) (t1 t2 : State), s.fault = false →
    normalize s.ktag s.keyin = .ok k →
    ecbDecrypt c1 (expand k) = .ok p1 → unpad p1 = .error e1 →
    ecbDecrypt c2 (expand k) = .ok p2 → unpad p2 = .ok b → b64Dec b = .error e2 →
    exec .decf { s with ibuf := c1 } = .next t1 → exec .decf { s with ibuf := c2 } = .next t2 →
    t1.err = some .decryptionFailed ∧ { t1 with ibuf := [] } = { t2 with ibuf := [] }) ∧
  (∀ (s t : State) (e : FaultCause), s.fault = false → unpad s.ibuf = .error e → exec .unpad s = .next t →
    t.err = some .invalidPadding ∧ t.fcmd = 0x0031#16) ∧
  (∀ (s t : State) (e : FaultCause), s.fault = false → b64Dec s.ibuf = .error e → exec .b64d s = .next t →
    t.err = some .invalidBase64 ∧ t.fcmd = 0x0051#16)

/-- R175, round trip: from any fault-free state, LoadKey; LoadIBUF; ENCF; OTOI; DECF ends with FAULT = 0, OBUF the raw
bytes and ORIG_SIZE their length, for every key the host may load that normalises and every raw sequence whose
ciphertext length is below 2^LEN_W. That the host's moves are a script in the state, one taken at each step, is the
model's choice (log 1). -/
def Obligations.DecryptionReturnsTheEncryptedFile : Prop :=
  ∀ (s : State) (tag : BitVec 2) (es : List Elem) (k : Block) (raw : List Byte), s.fault = false →
    keyInputLegal tag es = true → normalize tag es = .ok k → fileSize raw.length < 2 ^ 64 →
    ∃ t : State, runScript
        [.loadKey tag es, .loadIbuf raw, .issue 0x0060#16, .issue 0x0070#16, .issue 0x0061#16] s = .next t ∧
      t.fault = false ∧ t.obuf = raw ∧ t.origSize.toNat = raw.length ∧ t.encSize.toNat = fileSize raw.length

/-! ## Control, faults and reset -/

/-- R185: OTOI completes with IBUF the old OBUF and OBUF empty, nothing else changed; it is ignored in the fault state;
twice in a row empties both buffers. -/
def Obligations.OtoiMovesTheOutput : Prop :=
  encode .otoi = 0x0070#16 ∧
  (∀ s : State, s.fault = false → exec .otoi s = .next { s with ibuf := s.obuf, obuf := [] }) ∧
  (∀ s : State, s.fault = true → exec .otoi s = .next s) ∧
  (∀ s : State, s.fault = false → execAll [.otoi, .otoi] s = .next { s with ibuf := [], obuf := [] })

/-- R27, R186, R51: RST completes in every state, the fault state included, with every piece of core state at the value
R27 lists; the host move HardReset has the same effect; RST is idempotent. -/
def Obligations.RstResetsEveryPieceOfState : Prop :=
  encode .rst = 0x007F#16 ∧
  (∀ s : State, exec .rst s = .next {
    gfa := 0x00#8, gfb := 0x00#8, gfp := 0x00#8
    st := Vector.replicate 16 0x00#8, key := Vector.replicate 16 0x00#8
    rk := Vector.replicate 11 (Vector.replicate 16 0x00#8)
    ktag := 0#2, keyin := [], ibuf := [], obuf := []
    fault := false, err := none, fcmd := 0x0000#16, origSize := 0#64, encSize := 0#64
    host := s.host }) ∧
  (∀ s : State, hostMove .hardReset s = exec .rst s) ∧
  (∀ s : State, execAll [.rst, .rst] s = exec .rst s)

/-- R222: right after reset, RK is not the schedule of the zero key, KEYEXP installs that schedule without a fault, and
KEYLD, ENCF and DECF raise InvalidKeyLength. -/
def Obligations.StartUpNeedsAKey : Prop :=
  expand State.reset.key ≠ State.reset.rk ∧
  (expand State.reset.key)[1].toList =
    [0x62#8, 0x63#8, 0x63#8, 0x63#8, 0x62#8, 0x63#8, 0x63#8, 0x63#8, 0x62#8, 0x63#8, 0x63#8, 0x63#8,
      0x62#8, 0x63#8, 0x63#8, 0x63#8] ∧
  exec .keyexp State.reset = .next { State.reset with rk := expand (Vector.replicate 16 0x00#8) } ∧
  exec .keyld State.reset = .next (enterFault .invalidKeyLength 0x0021#16 State.reset) ∧
  exec .encf State.reset = .next (enterFault .invalidKeyLength 0x0060#16 State.reset) ∧
  exec .decf State.reset = .next (enterFault .invalidKeyLength 0x0061#16 State.reset)

/-- R192, R193: whichever command raises, and for an illegal word too, the state after a fault is the state before with
FAULT, ERR, FCMD, OBUF, ST and the two sizes written as the rules say and in no other way: KEY, RK, GFA, GFB, GFP,
KTAG, KEYIN and IBUF keep their values. ERR is the very fault that the command's function raises in the state before
(`Raises`), one of those the command may raise (`mayRaise`). -/
def Obligations.FaultsArePrecise : Prop :=
  (∀ (i : Instr) (s t : State), s.fault = false → exec i s = .next t → t.fault = true →
    ∃ e : FaultCause, Raises i s e ∧ (i.wellFormed = true → e ∈ mayRaise i) ∧ t = { s with
      fault := true, err := some e, fcmd := encode i, obuf := [], st := Vector.replicate 16 0x00#8,
      origSize := 0#64, encSize := 0#64 }) ∧
  (∀ (i : Instr) (s : State) (e : FaultCause), s.fault = false → Raises i s e →
    exec i s = .next { s with
      fault := true, err := some e, fcmd := encode i, obuf := [], st := Vector.replicate 16 0x00#8,
      origSize := 0#64, encSize := 0#64 }) ∧
  (∀ (c : CmdWord) (s : State) (x : DecodeError), s.fault = false → decode c = .error x →
    moveIssue c s = .next { s with
      fault := true, err := some .illegalCommand, fcmd := c, obuf := [], st := Vector.replicate 16 0x00#8,
      origSize := 0#64, encSize := 0#64 })

/-- R194: while FAULT = 1 every word but 0x007F does nothing at all, an illegal one included; 0x007F executes; and the
host moves do what they do in any state: the loads replace their buffers (lengths below 2^LEN_W, R6's default: log 3,
log 4, log 5), WriteData and WriteReg store the byte and nothing else, Read returns the current value and changes
nothing in the core, HardReset resets it. That the host keeps what its reads return in `host.got` is the model's choice
(log 13). -/
def Obligations.FaultStateIgnoresEveryCommandButRst : Prop :=
  (∀ (c : CmdWord) (s : State), s.fault = true → c ≠ 0x007F#16 → moveIssue c s = .next s) ∧
  (∀ s : State, s.fault = true → moveIssue 0x007F#16 s = .next { State.reset with host := s.host }) ∧
  (∀ s : State, s.fault = true →
    (∀ bs : List Byte, bs.length < 2 ^ 64 → hostMove (.loadIbuf bs) s = .next { s with ibuf := bs }) ∧
    (∀ (tag : BitVec 2) (es : List Elem), es.length < 2 ^ 64 → keyInputLegal tag es = true →
      hostMove (.loadKey tag es) s = .next { s with ktag := tag, keyin := es }) ∧
    (∀ (w : Window) (i : Nat) (v : Byte), w = .st ∨ w = .key ∨ w = .rk →
      ∃ t : State, hostMove (.writeData w i v) s = .next t ∧
        (∀ (x : Window) (a : Nat), readElem x a t =
          if x = w ∧ a = i ∧ i < (if w = .rk then 176 else 16) then v.toNat else readElem x a s) ∧
        (∀ r : Reg, readReg r t = readReg r s) ∧ t.err = s.err ∧ t.host = s.host) ∧
    (∀ v : Nat, v < 256 → hostMove (.writeReg 10 v) s = .next { s with gfa := BitVec.ofNat 8 v } ∧
      hostMove (.writeReg 11 v) s = .next { s with gfb := BitVec.ofNat 8 v }) ∧
    (∀ x : ReadTarget, ∃ v : ReadValue,
      hostMove (.read x) s = .next { s with host := ⟨s.host.script, v :: s.host.got⟩ } ∧
      (x = .wholeObuf → v = .buffer s.obuf) ∧
      (∀ n, x = .reg n → v = .value (readReg (Reg.ofNumber n) s)) ∧
      (∀ w i, x = .elem w i → v = .value (readElem w i s))) ∧
    hostMove .hardReset s = .next { State.reset with host := s.host })

/-- R191: a well-formed command can raise a fault in some state if and only if the table says "yes", and an illegal word
raises IllegalCommand and nothing else. -/
def Obligations.RaisableFaultsAreTheTable : Prop :=
  (∀ (i : Instr) (e : FaultCause), i.wellFormed = true →
    ((∃ s t : State, s.fault = false ∧ exec i s = .next t ∧ t.fault = true ∧ t.err = some e) ↔ e ∈ mayRaise i)) ∧
  (∀ (c : CmdWord) (x : DecodeError) (s t : State), decode c = .error x → s.fault = false →
    moveIssue c s = .next t → t.err = some .illegalCommand)

/-- R20: STATUS is FAULT in bit 0, zero in bits 3:1 and the code of ERR in bits 7:4; after a fault with code e it is
16 * e + 1, and 0 after reset. -/
def Obligations.StatusShowsFaultAndCode : Prop :=
  (∀ s : State, (statusReg s).getLsbD 0 = s.fault ∧ (statusReg s).extractLsb' 1 3 = 0#3 ∧
    (statusReg s).extractLsb' 4 4 = errCode s.err) ∧
  (∀ (e : FaultCause) (c : CmdWord) (s : State), (statusReg (enterFault e c s)).toNat = 16 * e.code.toNat + 1) ∧
  (∀ s : State, statusReg (resetCore s) = 0x00#8) ∧
  [FaultCause.invalidKeyFormat, .invalidKeyLength, .invalidKeyEncoding, .invalidBlockSize, .invalidPadding,
    .invalidBase64, .decryptionFailed, .illegalCommand].map (fun e => e.code.toNat) = [1, 2, 3, 4, 5, 6, 7, 8]

/-! ## Invariants -/

/-- R20, R21, R27: the state after reset meets the invariant. -/
def Obligations.ResetMeetsTheInvariant : Prop := Inv State.reset

/-- R20, R21, R191, R193, R16: every step keeps the invariant, in every state that meets it. A step is the host's next
move (log 1). -/
def Obligations.StepKeepsTheInvariant : Prop := ∀ s t : State, Inv s → step s = .next t → Inv t

/-- R23, R172: every step keeps the size law: the size registers are both 0 or ENC_SIZE is the ciphertext length of
ORIG_SIZE raw bytes, after ENCF and after DECF alike. A step is the host's next move (log 1). -/
def Obligations.StepKeepsTheSizeLaw : Prop := ∀ s t : State, SizeLaw s → step s = .next t → SizeLaw t

/-! ## Encoding -/

/-- R60 to R62: the decoder gives back every well-formed command the encoder encodes. -/
def Obligations.DecodeOfEncodeIsTheCommand : Prop :=
  ∀ i : Instr, i.wellFormed = true → decode (encode i) = .ok i

/-- R62: a word selects a row when `c & Mask = Match`, for ADDRK additionally with rnd at most 10, and then decodes to that
row's command; the other way round a word that decodes is the encoding of its command; the rows are disjoint. -/
def Obligations.DecodeSelectsTheTableRow : Prop :=
  (∀ (c : CmdWord) (i : Instr), decode c = .ok i ↔ i.wellFormed = true ∧
    c &&& (match i with | .addrk _ => 0xF0FF#16 | _ => 0xFFFF#16) =
      (match i with | .addrk _ => 0x0013#16 | j => encode j) ∧
    (∀ r, i = .addrk r → r = rndField c)) ∧
  [Instr.gfmul, .subb, .shrow, .mixc, .isubb, .ishrow, .imixc, .keyexp, .keyld, .pad, .unpad, .encb, .decb, .ecbe,
    .ecbd, .b64e, .b64d, .encf, .decf, .otoi, .rst].map encode =
    [0x0001#16, 0x0010#16, 0x0011#16, 0x0012#16, 0x0014#16, 0x0015#16, 0x0016#16, 0x0020#16, 0x0021#16, 0x0030#16,
      0x0031#16, 0x0040#16, 0x0041#16, 0x0042#16, 0x0043#16, 0x0050#16, 0x0051#16, 0x0060#16, 0x0061#16, 0x0070#16,
      0x007F#16] ∧
  (∀ (c : CmdWord) (i : Instr), decode c = .ok i → encode i = c) ∧
  (∀ i j : Instr, i.wellFormed = true → j.wellFormed = true → encode i = encode j → i = j)

/-- R64: the illegal words are exactly those with bits 15:12 set, with an unknown opcode, with a format-N opcode and rnd
not 0, or ADDRK with rnd above 10; 0x0000 is one; exactly 32 words are legal; an illegal word issued with FAULT = 0
raises IllegalCommand with FCMD the word. -/
def Obligations.IllegalWordsAreExactlyThese : Prop :=
  (∀ c : CmdWord, (∃ x, decode c = .error x) ↔
    (c.toNat / 4096 ≠ 0 ∨
     c.toNat % 256 ∉ [0x01, 0x10, 0x11, 0x12, 0x13, 0x14, 0x15, 0x16, 0x20, 0x21, 0x30, 0x31, 0x40, 0x41, 0x42, 0x43,
       0x50, 0x51, 0x60, 0x61, 0x70, 0x7F] ∨
     (c.toNat % 256 ≠ 0x13 ∧ c.toNat / 256 % 16 ≠ 0) ∨
     (c.toNat % 256 = 0x13 ∧ 10 < c.toNat / 256 % 16))) ∧
  (∃ x, decode 0x0000#16 = .error x) ∧
  (∃ ws : List CmdWord, ws.Nodup ∧ ws.length = 32 ∧ ∀ c, (∃ i, decode c = .ok i) ↔ c ∈ ws) ∧
  (∀ (c : CmdWord) (x : DecodeError) (s : State), decode c = .error x → s.fault = false →
    moveIssue c s = .next (enterFault .illegalCommand c s))

/-- R66: words of every family, written out from the Match column of R62, decode to the commands they stand for. R64: four
illegal words are rejected; which of the decoder's named reasons each has is the model's choice (log 21), the spec
giving all of them the one fault IllegalCommand. -/
def Obligations.TableWordsDecode : Prop :=
  decode 0x0001#16 = .ok .gfmul ∧ decode 0x0012#16 = .ok .mixc ∧ decode 0x0313#16 = .ok (.addrk 3#4) ∧
  decode 0x0A13#16 = .ok (.addrk 10#4) ∧ decode 0x0020#16 = .ok .keyexp ∧ decode 0x0021#16 = .ok .keyld ∧
  decode 0x0031#16 = .ok .unpad ∧ decode 0x0043#16 = .ok .ecbd ∧ decode 0x0050#16 = .ok .b64e ∧
  decode 0x0061#16 = .ok .decf ∧ decode 0x0070#16 = .ok .otoi ∧ decode 0x007F#16 = .ok .rst ∧
  decode 0x0B13#16 = .error .roundIndexTooLarge ∧ decode 0x017F#16 = .error .operandOnFormatN ∧
  decode 0x807F#16 = .error .highBitsNotZero ∧ decode 0x0000#16 = .error .unknownOpcode

/-! ## The step -/

/-- R50, R52: a step is the host's next move, whichever it is, in the state with the move taken off the host's script; with
none left nothing happens (R197). When that move issues a word that decodes to a command, the step is that command's
meaning; a write of the word to CMD, register 0, is the same move (R19); and so is the word placed by `withFetchWord`.
An issued word that selects no command enters the fault IllegalCommand, or is ignored in the fault state. The script is
the model's choice (log 1, log 2). -/
def Obligations.StepRunsTheIssuedCommand : Prop :=
  (∀ (s : State) (m : HostMove) (rest : List HostMove), s.host.script = m :: rest →
    step s = hostMove m { s with host := ⟨rest, s.host.got⟩ }) ∧
  (∀ s : State, s.host.script = [] → step s = .next s) ∧
  (∀ (s : State) (c : CmdWord) (i : Instr), decode c = .ok i →
    (∀ rest, s.host.script = .issue c :: rest → step s = exec i { s with host := ⟨rest, s.host.got⟩ }) ∧
    (∀ rest, s.host.script = .writeReg 0 c.toNat :: rest → step s = exec i { s with host := ⟨rest, s.host.got⟩ }) ∧
    step (s.withFetchWord 16 c.toNat) = exec i s) ∧
  (∀ (s : State) (c : CmdWord) (x : DecodeError) (rest : List HostMove), decode c = .error x →
    s.host.script = .issue c :: rest ∨ s.host.script = .writeReg 0 c.toNat :: rest →
    step s = .next (if s.fault = true then { s with host := ⟨rest, s.host.got⟩ }
      else enterFault .illegalCommand c { s with host := ⟨rest, s.host.got⟩ }))

/-- R63: what Issue(c) does, in the rule's order: RST first, then the fault state, then illegality, then the selected
command. -/
def Obligations.IssueFollowsTheDecodeOrder : Prop :=
  ∀ (c : CmdWord) (s : State), moveIssue c s =
    if c = 0x007F#16 then .next { State.reset with host := s.host }
    else if s.fault = true then .next s
    else match decode c with
      | .error _ => .next (enterFault .illegalCommand c s)
      | .ok i => exec i s

/-- R232, R198: in every state whose memories have their form every command answers a next state, fault entry included;
only PAD, B64E and ENCF can be refused, and only for an output of 2^LEN_W bytes or more, which R6 and D13 put outside
the spec (log 3, log 4). -/
def Obligations.EveryCommandAnswers : Prop :=
  ∀ (i : Instr) (s : State), Memory.wf s = true →
    (∃ t, exec i s = .next t) ∨
    (exec i s = .refused .lengthOutsideSpec ∧
      ((i = .pad ∧ 2 ^ 64 ≤ (pad s.ibuf).length) ∨ (i = .b64e ∧ 2 ^ 64 ≤ (b64Enc s.ibuf).length) ∨
       (i = .encf ∧ 2 ^ 64 ≤ fileSize s.ibuf.length)))

/-! ## Who writes what -/

/-- R11, R13 to R18, R21, R23: each register and buffer is written by the commands its rule lists, and by no other: a
command that changes one is on its list, or raised a fault that clears it. -/
def Obligations.OnlyListedCommandsWriteEachRegister : Prop :=
  ∀ (i : Instr) (s t : State), exec i s = .next t → i ≠ .rst →
    t.gfa = s.gfa ∧ t.gfb = s.gfb ∧ t.ktag = s.ktag ∧ t.keyin = s.keyin ∧ t.host = s.host ∧
    (t.gfp ≠ s.gfp → i = .gfmul) ∧
    (t.key ≠ s.key → i = .keyld ∨ i = .encf ∨ i = .decf) ∧
    (t.rk ≠ s.rk → i = .keyexp ∨ i = .encf ∨ i = .decf) ∧
    (t.ibuf ≠ s.ibuf → i = .otoi) ∧
    (t.fault ≠ s.fault ∨ t.err ≠ s.err ∨ t.fcmd ≠ s.fcmd → s.fault = false ∧ t.fault = true) ∧
    (t.origSize ≠ s.origSize ∨ t.encSize ≠ s.encSize → i = .encf ∨ i = .decf ∨ t.fault = true) ∧
    (t.obuf ≠ s.obuf → i ∈ [Instr.pad, .unpad, .ecbe, .ecbd, .b64e, .b64d, .encf, .decf, .otoi] ∨ t.fault = true) ∧
    (t.st ≠ s.st → i ∈ [Instr.subb, .shrow, .mixc, .isubb, .ishrow, .imixc, .encb, .decb, .ecbe, .ecbd, .encf, .decf] ∨
      (∃ r, i = .addrk r) ∨ t.fault = true)

/-- The frame of the commands that store nothing into a buffer (R82, R93 to R101, R114, R124, R141, R143): every window
element but those of the one destination window reads as before, and every register but the destination's, the
sizes, the flag and the fault registers included, is as before, where no fault is raised. -/
def Obligations.RegisterCommandsFrame : Prop :=
  ∀ (i : Instr) (s t : State) (dst : Window),
    (i = .gfmul ∧ dst = .st ∨ i ∈ [Instr.subb, .shrow, .mixc, .isubb, .ishrow, .imixc, .encb, .decb] ∧ dst = .st ∨
      (∃ r, i = .addrk r) ∧ dst = .st ∨ i = .keyexp ∧ dst = .rk ∨ i = .keyld ∧ dst = .key) →
    s.fault = false → exec i s = .next t → t.fault = false →
    (∀ (w : Window) (a : Nat), w ≠ dst ∨ i = .gfmul → readElem w a t = readElem w a s) ∧
    (∀ r : Reg, r ≠ .gfp ∨ i ≠ .gfmul → readReg r t = readReg r s) ∧ t.err = s.err ∧ t.host = s.host

/-- The frame of the buffer commands that do not raise (R131, R133, R145, R146, R157, R159, R171, R174): they store their
result into OBUF from index 0, so OBUF reads as the result where the result has a byte and 0 beyond it; every window
element outside OBUF reads as before, but for ST, which the cipher commands zero, and KEY and RK, which ENCF and DECF
install; IBUF and the key input are not consumed. -/
def Obligations.BufferCommandsFrame : Prop :=
  ∀ (i : Instr) (s t : State) (out : List Byte),
    (i = .pad ∧ out = pad s.ibuf ∨ i = .unpad ∧ unpad s.ibuf = .ok out ∨ i = .b64e ∧ out = b64Enc s.ibuf ∨
      i = .b64d ∧ b64Dec s.ibuf = .ok out ∨ i = .ecbe ∧ ecbEncrypt s.ibuf s.rk = .ok out ∨
      i = .ecbd ∧ ecbDecrypt s.ibuf s.rk = .ok out ∨
      i = .encf ∧ (∃ r, encryptFile s.ibuf s.ktag s.keyin = .ok r ∧ r.payload = out) ∨
      i = .decf ∧ (∃ r, decryptFile s.ibuf s.ktag s.keyin = .ok r ∧ r.payload = out)) →
    s.fault = false → exec i s = .next t →
    (∀ a : Nat, readElem .obuf a t = (out.getD a 0).toNat) ∧ t.obuf.length = out.length ∧
    (∀ a : Nat, readElem .ibuf a t = readElem .ibuf a s ∧ readElem .keyin a t = readElem .keyin a s) ∧
    (∀ a : Nat, readElem .st a t = if i ∈ [Instr.ecbe, .ecbd, .encf, .decf] then 0 else readElem .st a s) ∧
    (∀ a : Nat, i ≠ .encf → i ≠ .decf → readElem .key a t = readElem .key a s ∧ readElem .rk a t = readElem .rk a s) ∧
    (i ≠ .encf → i ≠ .decf → t.origSize = s.origSize ∧ t.encSize = s.encSize) ∧
    t.gfa = s.gfa ∧ t.gfb = s.gfb ∧ t.gfp = s.gfp ∧ t.ktag = s.ktag ∧ t.keyin.length = s.keyin.length ∧
    t.ibuf.length = s.ibuf.length ∧ t.fault = s.fault ∧ t.err = s.err ∧ t.fcmd = s.fcmd ∧ t.host = s.host

/-! ## The host's moves -/

/-- R46, R47: LoadIBUF replaces IBUF and LoadKey replaces KTAG and KEYIN, in every state, and nothing else changes. The
lengths are those below 2^LEN_W, the capacities unbounded: R6's defaults (log 3, log 4, log 5). -/
def Obligations.LoadsReplaceTheirBufferOnly : Prop :=
  (∀ (s : State) (bs : List Byte), bs.length < 2 ^ 64 → hostMove (.loadIbuf bs) s = .next { s with ibuf := bs }) ∧
  (∀ (s : State) (tag : BitVec 2) (es : List Elem), es.length < 2 ^ 64 →
    (tag = 0#2 → ∀ u ∈ es, u.toNat < 256) →
    (tag = 1#2 → ∀ u ∈ es, u.toNat ≤ 0x10FFFF ∧ ¬ (0xD800 ≤ u.toNat ∧ u.toNat ≤ 0xDFFF)) →
    hostMove (.loadKey tag es) s = .next { s with ktag := tag, keyin := es })

/-- R48: WriteData stores one byte of ST, KEY or RK (index 16*r + j meaning RK[r][j]) and nothing else; an index out of
range changes nothing. WriteReg stores a byte in GFA (register 10) or GFB (register 11). -/
def Obligations.WriteDataStoresOneByte : Prop :=
  (∀ (s : State) (v : Nat), v < 256 →
    hostMove (.writeReg 10 v) s = .next { s with gfa := BitVec.ofNat 8 v } ∧
    hostMove (.writeReg 11 v) s = .next { s with gfb := BitVec.ofNat 8 v }) ∧
  (∀ (s : State) (w : Window) (i : Nat) (v : Byte), w = .st ∨ w = .key ∨ w = .rk →
    ∃ t : State, hostMove (.writeData w i v) s = .next t ∧
      (∀ (x : Window) (a : Nat), readElem x a t =
        if x = w ∧ a = i ∧ i < (if w = .rk then 176 else 16) then v.toNat else readElem x a s) ∧
      (∀ r : Reg, readReg r t = readReg r s) ∧ t.err = s.err ∧ t.host = s.host) ∧
  (∀ (s : State) (r : Fin 11) (j : Fin 16), readElem .rk (16 * r.val + j.val) s = s.rk[r][j].toNat)

/-- The model's choices about accesses that are no move of the spec, or that D37 decides. A write to a read-only or
unmapped register, and a one-byte write to a window the host writes only whole, changes nothing and raises nothing
(R24, log 16). A load of key elements that are not legal for the tag, a load of 2^LEN_W elements or more, and a value
wider than CMD, GFA or GFB are refused (log 8, log 3, log 17). -/
def Obligations.MovesOutsideTheSpecChangeNothing : Prop :=
  (∀ (s : State) (n v : Nat), n ≠ 0 → n ≠ 10 → n ≠ 11 → hostMove (.writeReg n v) s = .next s) ∧
  (∀ (s : State) (w : Window) (i : Nat) (v : Byte), w = .keyin ∨ w = .ibuf ∨ w = .obuf →
    hostMove (.writeData w i v) s = .next s) ∧
  (∀ (s : State) (es : List Elem), es.length < 2 ^ 64 → (∃ u ∈ es, 256 ≤ u.toNat) →
    hostMove (.loadKey 0#2 es) s = .refused .malformedKeyInput) ∧
  (∀ (s : State) (es : List Elem), es.length < 2 ^ 64 →
    (∃ u ∈ es, 0x10FFFF < u.toNat ∨ (0xD800 ≤ u.toNat ∧ u.toNat ≤ 0xDFFF)) →
    hostMove (.loadKey 1#2 es) s = .refused .malformedKeyInput) ∧
  (∀ (s : State) (bs : List Byte), 2 ^ 64 ≤ bs.length → hostMove (.loadIbuf bs) s = .refused .loadBeyondCapacity) ∧
  (∀ (s : State) (tag : BitVec 2) (es : List Elem), 2 ^ 64 ≤ es.length →
    hostMove (.loadKey tag es) s = .refused .loadBeyondCapacity) ∧
  (∀ (s : State) (v : Nat), 65536 ≤ v → hostMove (.writeReg 0 v) s = .refused .valueWiderThanRegister) ∧
  (∀ (s : State) (n v : Nat), n = 10 ∨ n = 11 → 256 ≤ v →
    hostMove (.writeReg n v) s = .refused .valueWiderThanRegister)

/-- R49, R24: Read returns the current value of the register by its number, of a window element, or of all of OBUF, 0 for
register numbers 13 and up and beyond a sequence's length, and changes nothing in the core. That the host keeps what its
reads return in `host.got` is the model's choice (log 13), and so is the script (log 1). -/
def Obligations.ReadsChangeNothing : Prop :=
  (∀ (s : State) (x : ReadTarget) (rest : List HostMove), s.host.script = .read x :: rest →
    ∃ v : ReadValue, step s = .next { s with host := ⟨rest, v :: s.host.got⟩ } ∧
      (x = .wholeObuf → v = .buffer s.obuf) ∧
      (∀ n, x = .reg n → v = .value (
        match n with
        | 1 => (statusReg s).toNat
        | 2 => s.fcmd.toNat
        | 3 => Config.algTag
        | 4 => s.ktag.toNat
        | 5 => s.keyin.length
        | 6 => s.ibuf.length
        | 7 => s.obuf.length
        | 8 => s.origSize.toNat
        | 9 => s.encSize.toNat
        | 10 => s.gfa.toNat
        | 11 => s.gfb.toNat
        | 12 => s.gfp.toNat
        | _ => 0)) ∧
      (∀ i, x = .elem .st i → v = .value (if h : i < 16 then s.st[i].toNat else 0)) ∧
      (∀ i, x = .elem .key i → v = .value (if h : i < 16 then s.key[i].toNat else 0)) ∧
      (∀ i, x = .elem .rk i → v = .value (if h : i / 16 < 11 then (s.rk[i / 16][i % 16]'(Nat.mod_lt _ (by decide))).toNat else 0)) ∧
      (∀ i, x = .elem .keyin i → v = .value (if h : i < s.keyin.length then s.keyin[i].toNat else 0)) ∧
      (∀ i, x = .elem .ibuf i → v = .value (if h : i < s.ibuf.length then s.ibuf[i].toNat else 0)) ∧
      (∀ i, x = .elem .obuf i → v = .value (if h : i < s.obuf.length then s.obuf[i].toNat else 0)))
end

