-- ==== Sys2Proof/Laws/State.lean ====
section
/-! SUPPORT. One lemma per field per write of the state, true by definition, so that no proof unfolds a record update. -/

namespace Sys2Proof.Machine

variable (s : State)

/-! ### setGfa -/

@[simp] theorem State.setGfa_gfa (v : Byte) : (s.setGfa v).gfa = v := rfl
@[simp] theorem State.setGfa_gfb (v : Byte) : (s.setGfa v).gfb = s.gfb := rfl
@[simp] theorem State.setGfa_gfp (v : Byte) : (s.setGfa v).gfp = s.gfp := rfl
@[simp] theorem State.setGfa_st (v : Byte) : (s.setGfa v).st = s.st := rfl
@[simp] theorem State.setGfa_key (v : Byte) : (s.setGfa v).key = s.key := rfl
@[simp] theorem State.setGfa_rk (v : Byte) : (s.setGfa v).rk = s.rk := rfl
@[simp] theorem State.setGfa_ktag (v : Byte) : (s.setGfa v).ktag = s.ktag := rfl
@[simp] theorem State.setGfa_keyin (v : Byte) : (s.setGfa v).keyin = s.keyin := rfl
@[simp] theorem State.setGfa_ibuf (v : Byte) : (s.setGfa v).ibuf = s.ibuf := rfl
@[simp] theorem State.setGfa_obuf (v : Byte) : (s.setGfa v).obuf = s.obuf := rfl
@[simp] theorem State.setGfa_fault (v : Byte) : (s.setGfa v).fault = s.fault := rfl
@[simp] theorem State.setGfa_err (v : Byte) : (s.setGfa v).err = s.err := rfl
@[simp] theorem State.setGfa_fcmd (v : Byte) : (s.setGfa v).fcmd = s.fcmd := rfl
@[simp] theorem State.setGfa_origSize (v : Byte) : (s.setGfa v).origSize = s.origSize := rfl
@[simp] theorem State.setGfa_encSize (v : Byte) : (s.setGfa v).encSize = s.encSize := rfl
@[simp] theorem State.setGfa_host (v : Byte) : (s.setGfa v).host = s.host := rfl

/-! ### setGfb -/

@[simp] theorem State.setGfb_gfa (v : Byte) : (s.setGfb v).gfa = s.gfa := rfl
@[simp] theorem State.setGfb_gfb (v : Byte) : (s.setGfb v).gfb = v := rfl
@[simp] theorem State.setGfb_gfp (v : Byte) : (s.setGfb v).gfp = s.gfp := rfl
@[simp] theorem State.setGfb_st (v : Byte) : (s.setGfb v).st = s.st := rfl
@[simp] theorem State.setGfb_key (v : Byte) : (s.setGfb v).key = s.key := rfl
@[simp] theorem State.setGfb_rk (v : Byte) : (s.setGfb v).rk = s.rk := rfl
@[simp] theorem State.setGfb_ktag (v : Byte) : (s.setGfb v).ktag = s.ktag := rfl
@[simp] theorem State.setGfb_keyin (v : Byte) : (s.setGfb v).keyin = s.keyin := rfl
@[simp] theorem State.setGfb_ibuf (v : Byte) : (s.setGfb v).ibuf = s.ibuf := rfl
@[simp] theorem State.setGfb_obuf (v : Byte) : (s.setGfb v).obuf = s.obuf := rfl
@[simp] theorem State.setGfb_fault (v : Byte) : (s.setGfb v).fault = s.fault := rfl
@[simp] theorem State.setGfb_err (v : Byte) : (s.setGfb v).err = s.err := rfl
@[simp] theorem State.setGfb_fcmd (v : Byte) : (s.setGfb v).fcmd = s.fcmd := rfl
@[simp] theorem State.setGfb_origSize (v : Byte) : (s.setGfb v).origSize = s.origSize := rfl
@[simp] theorem State.setGfb_encSize (v : Byte) : (s.setGfb v).encSize = s.encSize := rfl
@[simp] theorem State.setGfb_host (v : Byte) : (s.setGfb v).host = s.host := rfl

/-! ### setGfp -/

@[simp] theorem State.setGfp_gfa (v : Byte) : (s.setGfp v).gfa = s.gfa := rfl
@[simp] theorem State.setGfp_gfb (v : Byte) : (s.setGfp v).gfb = s.gfb := rfl
@[simp] theorem State.setGfp_gfp (v : Byte) : (s.setGfp v).gfp = v := rfl
@[simp] theorem State.setGfp_st (v : Byte) : (s.setGfp v).st = s.st := rfl
@[simp] theorem State.setGfp_key (v : Byte) : (s.setGfp v).key = s.key := rfl
@[simp] theorem State.setGfp_rk (v : Byte) : (s.setGfp v).rk = s.rk := rfl
@[simp] theorem State.setGfp_ktag (v : Byte) : (s.setGfp v).ktag = s.ktag := rfl
@[simp] theorem State.setGfp_keyin (v : Byte) : (s.setGfp v).keyin = s.keyin := rfl
@[simp] theorem State.setGfp_ibuf (v : Byte) : (s.setGfp v).ibuf = s.ibuf := rfl
@[simp] theorem State.setGfp_obuf (v : Byte) : (s.setGfp v).obuf = s.obuf := rfl
@[simp] theorem State.setGfp_fault (v : Byte) : (s.setGfp v).fault = s.fault := rfl
@[simp] theorem State.setGfp_err (v : Byte) : (s.setGfp v).err = s.err := rfl
@[simp] theorem State.setGfp_fcmd (v : Byte) : (s.setGfp v).fcmd = s.fcmd := rfl
@[simp] theorem State.setGfp_origSize (v : Byte) : (s.setGfp v).origSize = s.origSize := rfl
@[simp] theorem State.setGfp_encSize (v : Byte) : (s.setGfp v).encSize = s.encSize := rfl
@[simp] theorem State.setGfp_host (v : Byte) : (s.setGfp v).host = s.host := rfl

/-! ### setSt -/

@[simp] theorem State.setSt_gfa (b : Block) : (s.setSt b).gfa = s.gfa := rfl
@[simp] theorem State.setSt_gfb (b : Block) : (s.setSt b).gfb = s.gfb := rfl
@[simp] theorem State.setSt_gfp (b : Block) : (s.setSt b).gfp = s.gfp := rfl
@[simp] theorem State.setSt_st (b : Block) : (s.setSt b).st = b := rfl
@[simp] theorem State.setSt_key (b : Block) : (s.setSt b).key = s.key := rfl
@[simp] theorem State.setSt_rk (b : Block) : (s.setSt b).rk = s.rk := rfl
@[simp] theorem State.setSt_ktag (b : Block) : (s.setSt b).ktag = s.ktag := rfl
@[simp] theorem State.setSt_keyin (b : Block) : (s.setSt b).keyin = s.keyin := rfl
@[simp] theorem State.setSt_ibuf (b : Block) : (s.setSt b).ibuf = s.ibuf := rfl
@[simp] theorem State.setSt_obuf (b : Block) : (s.setSt b).obuf = s.obuf := rfl
@[simp] theorem State.setSt_fault (b : Block) : (s.setSt b).fault = s.fault := rfl
@[simp] theorem State.setSt_err (b : Block) : (s.setSt b).err = s.err := rfl
@[simp] theorem State.setSt_fcmd (b : Block) : (s.setSt b).fcmd = s.fcmd := rfl
@[simp] theorem State.setSt_origSize (b : Block) : (s.setSt b).origSize = s.origSize := rfl
@[simp] theorem State.setSt_encSize (b : Block) : (s.setSt b).encSize = s.encSize := rfl
@[simp] theorem State.setSt_host (b : Block) : (s.setSt b).host = s.host := rfl

/-! ### setKey -/

@[simp] theorem State.setKey_gfa (b : Block) : (s.setKey b).gfa = s.gfa := rfl
@[simp] theorem State.setKey_gfb (b : Block) : (s.setKey b).gfb = s.gfb := rfl
@[simp] theorem State.setKey_gfp (b : Block) : (s.setKey b).gfp = s.gfp := rfl
@[simp] theorem State.setKey_st (b : Block) : (s.setKey b).st = s.st := rfl
@[simp] theorem State.setKey_key (b : Block) : (s.setKey b).key = b := rfl
@[simp] theorem State.setKey_rk (b : Block) : (s.setKey b).rk = s.rk := rfl
@[simp] theorem State.setKey_ktag (b : Block) : (s.setKey b).ktag = s.ktag := rfl
@[simp] theorem State.setKey_keyin (b : Block) : (s.setKey b).keyin = s.keyin := rfl
@[simp] theorem State.setKey_ibuf (b : Block) : (s.setKey b).ibuf = s.ibuf := rfl
@[simp] theorem State.setKey_obuf (b : Block) : (s.setKey b).obuf = s.obuf := rfl
@[simp] theorem State.setKey_fault (b : Block) : (s.setKey b).fault = s.fault := rfl
@[simp] theorem State.setKey_err (b : Block) : (s.setKey b).err = s.err := rfl
@[simp] theorem State.setKey_fcmd (b : Block) : (s.setKey b).fcmd = s.fcmd := rfl
@[simp] theorem State.setKey_origSize (b : Block) : (s.setKey b).origSize = s.origSize := rfl
@[simp] theorem State.setKey_encSize (b : Block) : (s.setKey b).encSize = s.encSize := rfl
@[simp] theorem State.setKey_host (b : Block) : (s.setKey b).host = s.host := rfl

/-! ### setRk -/

@[simp] theorem State.setRk_gfa (ks : RoundKeys) : (s.setRk ks).gfa = s.gfa := rfl
@[simp] theorem State.setRk_gfb (ks : RoundKeys) : (s.setRk ks).gfb = s.gfb := rfl
@[simp] theorem State.setRk_gfp (ks : RoundKeys) : (s.setRk ks).gfp = s.gfp := rfl
@[simp] theorem State.setRk_st (ks : RoundKeys) : (s.setRk ks).st = s.st := rfl
@[simp] theorem State.setRk_key (ks : RoundKeys) : (s.setRk ks).key = s.key := rfl
@[simp] theorem State.setRk_rk (ks : RoundKeys) : (s.setRk ks).rk = ks := rfl
@[simp] theorem State.setRk_ktag (ks : RoundKeys) : (s.setRk ks).ktag = s.ktag := rfl
@[simp] theorem State.setRk_keyin (ks : RoundKeys) : (s.setRk ks).keyin = s.keyin := rfl
@[simp] theorem State.setRk_ibuf (ks : RoundKeys) : (s.setRk ks).ibuf = s.ibuf := rfl
@[simp] theorem State.setRk_obuf (ks : RoundKeys) : (s.setRk ks).obuf = s.obuf := rfl
@[simp] theorem State.setRk_fault (ks : RoundKeys) : (s.setRk ks).fault = s.fault := rfl
@[simp] theorem State.setRk_err (ks : RoundKeys) : (s.setRk ks).err = s.err := rfl
@[simp] theorem State.setRk_fcmd (ks : RoundKeys) : (s.setRk ks).fcmd = s.fcmd := rfl
@[simp] theorem State.setRk_origSize (ks : RoundKeys) : (s.setRk ks).origSize = s.origSize := rfl
@[simp] theorem State.setRk_encSize (ks : RoundKeys) : (s.setRk ks).encSize = s.encSize := rfl
@[simp] theorem State.setRk_host (ks : RoundKeys) : (s.setRk ks).host = s.host := rfl

/-! ### setKeyInput -/

@[simp] theorem State.setKeyInput_gfa (tag : BitVec 2) (es : List Elem) : (s.setKeyInput tag es).gfa = s.gfa := rfl
@[simp] theorem State.setKeyInput_gfb (tag : BitVec 2) (es : List Elem) : (s.setKeyInput tag es).gfb = s.gfb := rfl
@[simp] theorem State.setKeyInput_gfp (tag : BitVec 2) (es : List Elem) : (s.setKeyInput tag es).gfp = s.gfp := rfl
@[simp] theorem State.setKeyInput_st (tag : BitVec 2) (es : List Elem) : (s.setKeyInput tag es).st = s.st := rfl
@[simp] theorem State.setKeyInput_key (tag : BitVec 2) (es : List Elem) : (s.setKeyInput tag es).key = s.key := rfl
@[simp] theorem State.setKeyInput_rk (tag : BitVec 2) (es : List Elem) : (s.setKeyInput tag es).rk = s.rk := rfl
@[simp] theorem State.setKeyInput_ktag (tag : BitVec 2) (es : List Elem) : (s.setKeyInput tag es).ktag = tag := rfl
@[simp] theorem State.setKeyInput_keyin (tag : BitVec 2) (es : List Elem) : (s.setKeyInput tag es).keyin = es := rfl
@[simp] theorem State.setKeyInput_ibuf (tag : BitVec 2) (es : List Elem) : (s.setKeyInput tag es).ibuf = s.ibuf := rfl
@[simp] theorem State.setKeyInput_obuf (tag : BitVec 2) (es : List Elem) : (s.setKeyInput tag es).obuf = s.obuf := rfl
@[simp] theorem State.setKeyInput_fault (tag : BitVec 2) (es : List Elem) : (s.setKeyInput tag es).fault = s.fault := rfl
@[simp] theorem State.setKeyInput_err (tag : BitVec 2) (es : List Elem) : (s.setKeyInput tag es).err = s.err := rfl
@[simp] theorem State.setKeyInput_fcmd (tag : BitVec 2) (es : List Elem) : (s.setKeyInput tag es).fcmd = s.fcmd := rfl
@[simp] theorem State.setKeyInput_origSize (tag : BitVec 2) (es : List Elem) : (s.setKeyInput tag es).origSize = s.origSize := rfl
@[simp] theorem State.setKeyInput_encSize (tag : BitVec 2) (es : List Elem) : (s.setKeyInput tag es).encSize = s.encSize := rfl
@[simp] theorem State.setKeyInput_host (tag : BitVec 2) (es : List Elem) : (s.setKeyInput tag es).host = s.host := rfl

/-! ### setIbuf -/

@[simp] theorem State.setIbuf_gfa (bs : List Byte) : (s.setIbuf bs).gfa = s.gfa := rfl
@[simp] theorem State.setIbuf_gfb (bs : List Byte) : (s.setIbuf bs).gfb = s.gfb := rfl
@[simp] theorem State.setIbuf_gfp (bs : List Byte) : (s.setIbuf bs).gfp = s.gfp := rfl
@[simp] theorem State.setIbuf_st (bs : List Byte) : (s.setIbuf bs).st = s.st := rfl
@[simp] theorem State.setIbuf_key (bs : List Byte) : (s.setIbuf bs).key = s.key := rfl
@[simp] theorem State.setIbuf_rk (bs : List Byte) : (s.setIbuf bs).rk = s.rk := rfl
@[simp] theorem State.setIbuf_ktag (bs : List Byte) : (s.setIbuf bs).ktag = s.ktag := rfl
@[simp] theorem State.setIbuf_keyin (bs : List Byte) : (s.setIbuf bs).keyin = s.keyin := rfl
@[simp] theorem State.setIbuf_ibuf (bs : List Byte) : (s.setIbuf bs).ibuf = bs := rfl
@[simp] theorem State.setIbuf_obuf (bs : List Byte) : (s.setIbuf bs).obuf = s.obuf := rfl
@[simp] theorem State.setIbuf_fault (bs : List Byte) : (s.setIbuf bs).fault = s.fault := rfl
@[simp] theorem State.setIbuf_err (bs : List Byte) : (s.setIbuf bs).err = s.err := rfl
@[simp] theorem State.setIbuf_fcmd (bs : List Byte) : (s.setIbuf bs).fcmd = s.fcmd := rfl
@[simp] theorem State.setIbuf_origSize (bs : List Byte) : (s.setIbuf bs).origSize = s.origSize := rfl
@[simp] theorem State.setIbuf_encSize (bs : List Byte) : (s.setIbuf bs).encSize = s.encSize := rfl
@[simp] theorem State.setIbuf_host (bs : List Byte) : (s.setIbuf bs).host = s.host := rfl

/-! ### setObuf -/

@[simp] theorem State.setObuf_gfa (bs : List Byte) : (s.setObuf bs).gfa = s.gfa := rfl
@[simp] theorem State.setObuf_gfb (bs : List Byte) : (s.setObuf bs).gfb = s.gfb := rfl
@[simp] theorem State.setObuf_gfp (bs : List Byte) : (s.setObuf bs).gfp = s.gfp := rfl
@[simp] theorem State.setObuf_st (bs : List Byte) : (s.setObuf bs).st = s.st := rfl
@[simp] theorem State.setObuf_key (bs : List Byte) : (s.setObuf bs).key = s.key := rfl
@[simp] theorem State.setObuf_rk (bs : List Byte) : (s.setObuf bs).rk = s.rk := rfl
@[simp] theorem State.setObuf_ktag (bs : List Byte) : (s.setObuf bs).ktag = s.ktag := rfl
@[simp] theorem State.setObuf_keyin (bs : List Byte) : (s.setObuf bs).keyin = s.keyin := rfl
@[simp] theorem State.setObuf_ibuf (bs : List Byte) : (s.setObuf bs).ibuf = s.ibuf := rfl
@[simp] theorem State.setObuf_obuf (bs : List Byte) : (s.setObuf bs).obuf = bs := rfl
@[simp] theorem State.setObuf_fault (bs : List Byte) : (s.setObuf bs).fault = s.fault := rfl
@[simp] theorem State.setObuf_err (bs : List Byte) : (s.setObuf bs).err = s.err := rfl
@[simp] theorem State.setObuf_fcmd (bs : List Byte) : (s.setObuf bs).fcmd = s.fcmd := rfl
@[simp] theorem State.setObuf_origSize (bs : List Byte) : (s.setObuf bs).origSize = s.origSize := rfl
@[simp] theorem State.setObuf_encSize (bs : List Byte) : (s.setObuf bs).encSize = s.encSize := rfl
@[simp] theorem State.setObuf_host (bs : List Byte) : (s.setObuf bs).host = s.host := rfl

/-! ### setSizes -/

@[simp] theorem State.setSizes_gfa (o e : Nat) : (s.setSizes o e).gfa = s.gfa := rfl
@[simp] theorem State.setSizes_gfb (o e : Nat) : (s.setSizes o e).gfb = s.gfb := rfl
@[simp] theorem State.setSizes_gfp (o e : Nat) : (s.setSizes o e).gfp = s.gfp := rfl
@[simp] theorem State.setSizes_st (o e : Nat) : (s.setSizes o e).st = s.st := rfl
@[simp] theorem State.setSizes_key (o e : Nat) : (s.setSizes o e).key = s.key := rfl
@[simp] theorem State.setSizes_rk (o e : Nat) : (s.setSizes o e).rk = s.rk := rfl
@[simp] theorem State.setSizes_ktag (o e : Nat) : (s.setSizes o e).ktag = s.ktag := rfl
@[simp] theorem State.setSizes_keyin (o e : Nat) : (s.setSizes o e).keyin = s.keyin := rfl
@[simp] theorem State.setSizes_ibuf (o e : Nat) : (s.setSizes o e).ibuf = s.ibuf := rfl
@[simp] theorem State.setSizes_obuf (o e : Nat) : (s.setSizes o e).obuf = s.obuf := rfl
@[simp] theorem State.setSizes_fault (o e : Nat) : (s.setSizes o e).fault = s.fault := rfl
@[simp] theorem State.setSizes_err (o e : Nat) : (s.setSizes o e).err = s.err := rfl
@[simp] theorem State.setSizes_fcmd (o e : Nat) : (s.setSizes o e).fcmd = s.fcmd := rfl
@[simp] theorem State.setSizes_origSize (o e : Nat) : (s.setSizes o e).origSize = BitVec.ofNat 64 o := rfl
@[simp] theorem State.setSizes_encSize (o e : Nat) : (s.setSizes o e).encSize = BitVec.ofNat 64 e := rfl
@[simp] theorem State.setSizes_host (o e : Nat) : (s.setSizes o e).host = s.host := rfl

/-! ### setHost -/

@[simp] theorem State.setHost_gfa (h : HostAgent) : (s.setHost h).gfa = s.gfa := rfl
@[simp] theorem State.setHost_gfb (h : HostAgent) : (s.setHost h).gfb = s.gfb := rfl
@[simp] theorem State.setHost_gfp (h : HostAgent) : (s.setHost h).gfp = s.gfp := rfl
@[simp] theorem State.setHost_st (h : HostAgent) : (s.setHost h).st = s.st := rfl
@[simp] theorem State.setHost_key (h : HostAgent) : (s.setHost h).key = s.key := rfl
@[simp] theorem State.setHost_rk (h : HostAgent) : (s.setHost h).rk = s.rk := rfl
@[simp] theorem State.setHost_ktag (h : HostAgent) : (s.setHost h).ktag = s.ktag := rfl
@[simp] theorem State.setHost_keyin (h : HostAgent) : (s.setHost h).keyin = s.keyin := rfl
@[simp] theorem State.setHost_ibuf (h : HostAgent) : (s.setHost h).ibuf = s.ibuf := rfl
@[simp] theorem State.setHost_obuf (h : HostAgent) : (s.setHost h).obuf = s.obuf := rfl
@[simp] theorem State.setHost_fault (h : HostAgent) : (s.setHost h).fault = s.fault := rfl
@[simp] theorem State.setHost_err (h : HostAgent) : (s.setHost h).err = s.err := rfl
@[simp] theorem State.setHost_fcmd (h : HostAgent) : (s.setHost h).fcmd = s.fcmd := rfl
@[simp] theorem State.setHost_origSize (h : HostAgent) : (s.setHost h).origSize = s.origSize := rfl
@[simp] theorem State.setHost_encSize (h : HostAgent) : (s.setHost h).encSize = s.encSize := rfl
@[simp] theorem State.setHost_host (h : HostAgent) : (s.setHost h).host = h := rfl

/-! ### Fault entry (R193) -/

@[simp] theorem enterFault_gfa (e : FaultCause) (c : CmdWord) : (enterFault e c s).gfa = s.gfa := rfl
@[simp] theorem enterFault_gfb (e : FaultCause) (c : CmdWord) : (enterFault e c s).gfb = s.gfb := rfl
@[simp] theorem enterFault_gfp (e : FaultCause) (c : CmdWord) : (enterFault e c s).gfp = s.gfp := rfl
@[simp] theorem enterFault_st (e : FaultCause) (c : CmdWord) : (enterFault e c s).st = zeroBlock := rfl
@[simp] theorem enterFault_key (e : FaultCause) (c : CmdWord) : (enterFault e c s).key = s.key := rfl
@[simp] theorem enterFault_rk (e : FaultCause) (c : CmdWord) : (enterFault e c s).rk = s.rk := rfl
@[simp] theorem enterFault_ktag (e : FaultCause) (c : CmdWord) : (enterFault e c s).ktag = s.ktag := rfl
@[simp] theorem enterFault_keyin (e : FaultCause) (c : CmdWord) : (enterFault e c s).keyin = s.keyin := rfl
@[simp] theorem enterFault_ibuf (e : FaultCause) (c : CmdWord) : (enterFault e c s).ibuf = s.ibuf := rfl
@[simp] theorem enterFault_obuf (e : FaultCause) (c : CmdWord) : (enterFault e c s).obuf = [] := rfl
@[simp] theorem enterFault_fault (e : FaultCause) (c : CmdWord) : (enterFault e c s).fault = true := rfl
@[simp] theorem enterFault_err (e : FaultCause) (c : CmdWord) : (enterFault e c s).err = some e := rfl
@[simp] theorem enterFault_fcmd (e : FaultCause) (c : CmdWord) : (enterFault e c s).fcmd = c := rfl
@[simp] theorem enterFault_origSize (e : FaultCause) (c : CmdWord) : (enterFault e c s).origSize = 0#64 := rfl
@[simp] theorem enterFault_encSize (e : FaultCause) (c : CmdWord) : (enterFault e c s).encSize = 0#64 := rfl
@[simp] theorem enterFault_host (e : FaultCause) (c : CmdWord) : (enterFault e c s).host = s.host := rfl

/-! ### Reset (R27, R186, R195) -/

@[simp] theorem resetCore_gfa : (resetCore s).gfa = 0#8 := rfl
@[simp] theorem resetCore_gfb : (resetCore s).gfb = 0#8 := rfl
@[simp] theorem resetCore_gfp : (resetCore s).gfp = 0#8 := rfl
@[simp] theorem resetCore_st : (resetCore s).st = zeroBlock := rfl
@[simp] theorem resetCore_key : (resetCore s).key = zeroBlock := rfl
@[simp] theorem resetCore_rk : (resetCore s).rk = zeroRoundKeys := rfl
@[simp] theorem resetCore_ktag : (resetCore s).ktag = tagBin := rfl
@[simp] theorem resetCore_keyin : (resetCore s).keyin = [] := rfl
@[simp] theorem resetCore_ibuf : (resetCore s).ibuf = [] := rfl
@[simp] theorem resetCore_obuf : (resetCore s).obuf = [] := rfl
@[simp] theorem resetCore_fault : (resetCore s).fault = false := rfl
@[simp] theorem resetCore_err : (resetCore s).err = none := rfl
@[simp] theorem resetCore_fcmd : (resetCore s).fcmd = 0#16 := rfl
@[simp] theorem resetCore_origSize : (resetCore s).origSize = 0#64 := rfl
@[simp] theorem resetCore_encSize : (resetCore s).encSize = 0#64 := rfl
@[simp] theorem resetCore_host : (resetCore s).host = s.host := rfl

end Sys2Proof.Machine
end

