-- ==== Sys2Proof/Laws/Ops.lean ====
section
/-! SUPPORT. What each shared operation can do, once: the gate of the fault state, the raise, the bounded output, and
the host's next move. Proofs cite these and do not unfold the operations. -/

namespace Sys2Proof.Machine

variable {s t : State} {r : Result}

/-! ### The fault-state gate (R194) -/

theorem ifReady_of_ready (h : s.fault = false) (r : Result) : ifReady s r = r := by simp [ifReady, h]

theorem ifReady_of_fault (h : s.fault = true) (r : Result) : ifReady s r = .next s := by simp [ifReady, h]

/-- A gated command that goes on was ignored, or ran. -/
theorem ifReady_next (h : ifReady s r = .next t) : (s.fault = true ∧ t = s) ∨ (s.fault = false ∧ r = .next t) := by
  cases hf : s.fault
  · exact .inr ⟨rfl, by simpa [ifReady, hf] using h⟩
  · exact .inl ⟨rfl, by simpa [ifReady, hf] using h.symm⟩

/-! ### Raising (R193) -/

theorem orRaise_ok {α : Type} (i : Instr) (s : State) (a : α) (go : α → Result) : orRaise i s (.ok a) go = go a := rfl

theorem orRaise_error {α : Type} (i : Instr) (s : State) (e : FaultCause) (go : α → Result) :
    orRaise i s (.error e) go = .next (enterFault e (encode i) s) := rfl

/-- A command that may raise either had its value and went on with it, or entered the fault it raised. -/
theorem orRaise_next {α : Type} {i : Instr} {x : Except FaultCause α} {go : α → Result}
    (h : orRaise i s x go = .next t) :
    (∃ a, x = .ok a ∧ go a = .next t) ∨ (∃ e, x = .error e ∧ t = enterFault e (encode i) s) := by
  cases x with
  | ok a => exact .inl ⟨a, rfl, h⟩
  | error e => exact .inr ⟨e, rfl, by simpa [orRaise, raise] using h.symm⟩

/-! ### Bounded outputs (R6, D12, D13) -/

theorem fitsLen_iff (n : Nat) : fitsLen n = true ↔ n < 2 ^ 64 := decide_eq_true_iff

theorem fitsBuffer_iff (n : Nat) : fitsBuffer n = true ↔ n < 2 ^ 64 := by
  simp [fitsBuffer, withinCap, Config.bufCap, fitsLen_iff]

theorem fitsKeyin_iff (n : Nat) : fitsKeyin n = true ↔ n < 2 ^ 64 := by
  simp [fitsKeyin, withinCap, Config.keyinCap, fitsLen_iff]

theorem withOutput_of_fits {out : List Byte} (h : out.length < 2 ^ 64) (t : State) : withOutput out t = .next t := by
  simp [withOutput, (fitsBuffer_iff _).2 h]

theorem withOutput_of_not_fits {out : List Byte} (h : ¬ out.length < 2 ^ 64) (t : State) :
    withOutput out t = .refused .lengthOutsideSpec := by
  have : fitsBuffer out.length = false := by
    rw [← Bool.not_eq_true, fitsBuffer_iff]; exact h
  simp [withOutput, this]

/-- A bounded output that is delivered fits, and the next state is the one prepared. -/
theorem withOutput_next {out : List Byte} {u : State} (h : withOutput out u = .next t) :
    out.length < 2 ^ 64 ∧ t = u := by
  by_cases hf : out.length < 2 ^ 64
  · rw [withOutput_of_fits hf] at h
    exact ⟨hf, (Host.Outcome.next.inj h).symm⟩
  · rw [withOutput_of_not_fits hf] at h
    cases h

/-! ### Operands (R61) -/

theorem roundIndex_of_lt {rnd : BitVec 4} (h : rnd.toNat < 11) : roundIndex rnd = some ⟨rnd.toNat, h⟩ := by
  simp [roundIndex, h]

theorem roundIndex_of_ge {rnd : BitVec 4} (h : 11 ≤ rnd.toNat) : roundIndex rnd = none := by
  simp [roundIndex, Nat.not_lt.2 h]

/-! ### Blocks -/

@[simp] theorem xor16_get (a b : Block) (i : Nat) (h : i < 16) : (xor16 a b)[i] = a[i] ^^^ b[i] := by
  simp [xor16]

@[simp] theorem Block.ofBytes_get (bs : List Byte) (i : Nat) (h : i < 16) :
    (Block.ofBytes bs)[i] = bs.getD i 0#8 := by
  simp [Block.ofBytes]

theorem xor16_self_cancel (a b : Block) : xor16 (xor16 a b) b = a := by
  ext i h
  simp

@[simp] theorem zeroBlock_get (i : Nat) (h : i < 16) : zeroBlock[i] = 0#8 := by simp [zeroBlock]

end Sys2Proof.Machine
end

