-- ==== Sys2Proof/Laws/Exec.lean ====
section
/-! SUPPORT. Everything a command can do, said once: it is ignored, it raises, or it completes with the writes its rule
gives. Proofs about all commands split on these lemmas and do not unfold `exec`. -/

namespace Sys2Proof.Machine

/-- The state a command leaves when it runs and does not raise, with what its functions gave. -/
def Completes (i : Instr) (s t : State) : Prop :=
  match i with
  | .gfmul => t = s.setGfp (gmul s.gfa s.gfb)
  | .subb => t = s.setSt (subBytes s.st)
  | .shrow => t = s.setSt (shiftRows s.st)
  | .mixc => t = s.setSt (mixColumns s.st)
  | .addrk rnd => ∃ r, roundIndex rnd = some r ∧ t = s.setSt (xor16 s.st (roundKey r s.rk))
  | .isubb => t = s.setSt (invSubBytes s.st)
  | .ishrow => t = s.setSt (invShiftRows s.st)
  | .imixc => t = s.setSt (invMixColumns s.st)
  | .keyexp => t = s.setRk (expand s.key)
  | .keyld => ∃ k, normalize s.ktag s.keyin = .ok k ∧ t = s.setKey k
  | .pad => (pad s.ibuf).length < 2 ^ 64 ∧ t = s.setObuf (pad s.ibuf)
  | .unpad => ∃ out, unpad s.ibuf = .ok out ∧ out.length < 2 ^ 64 ∧ t = s.setObuf out
  | .encb => t = s.setSt (encryptBlock s.st s.rk)
  | .decb => t = s.setSt (decryptBlock s.st s.rk)
  | .ecbe => ∃ out, ecbEncrypt s.ibuf s.rk = .ok out ∧ out.length < 2 ^ 64 ∧ t = (s.setObuf out).setSt zeroBlock
  | .ecbd => ∃ out, ecbDecrypt s.ibuf s.rk = .ok out ∧ out.length < 2 ^ 64 ∧ t = (s.setObuf out).setSt zeroBlock
  | .b64e => (b64Enc s.ibuf).length < 2 ^ 64 ∧ t = s.setObuf (b64Enc s.ibuf)
  | .b64d => ∃ out, b64Dec s.ibuf = .ok out ∧ out.length < 2 ^ 64 ∧ t = s.setObuf out
  | .encf => ∃ r, encryptFile s.ibuf s.ktag s.keyin = .ok r ∧ s.ibuf.length < 2 ^ 64 ∧ r.payload.length < 2 ^ 64 ∧
      t = ((((s.setObuf r.payload).setSizes s.ibuf.length r.payload.length).setKey r.key).setRk r.roundKeys).setSt
        zeroBlock
  | .decf => ∃ r, decryptFile s.ibuf s.ktag s.keyin = .ok r ∧ r.payload.length < 2 ^ 64 ∧ s.ibuf.length < 2 ^ 64 ∧
      t = ((((s.setObuf r.payload).setSizes r.payload.length s.ibuf.length).setKey r.key).setRk r.roundKeys).setSt
        zeroBlock
  | .otoi => t = (s.setIbuf s.obuf).setObuf []
  | .rst => t = resetCore s

variable {s t : State}

theorem exec_of_fault {i : Instr} (hi : i ≠ .rst) (h : s.fault = true) : exec i s = .next s := by
  cases i <;> first | exact ifReady_of_fault h _ | exact absurd rfl hi

/-- A pipeline that succeeds installs its result, both sizes and the payload being within LEN_W. -/
theorem installFile_next {r : FileResult} {o e : Nat} (h : installFile r o e s = .next t) :
    o < 2 ^ 64 ∧ e < 2 ^ 64 ∧ r.payload.length < 2 ^ 64 ∧
      t = ((((s.setObuf r.payload).setSizes o e).setKey r.key).setRk r.roundKeys).setSt zeroBlock := by
  unfold installFile at h
  split at h
  · rename_i hc
    rw [Bool.and_eq_true, fitsLen_iff, fitsLen_iff] at hc
    obtain ⟨hp, rfl⟩ := withOutput_next h
    exact ⟨hc.1, hc.2, hp, rfl⟩
  · cases h

theorem installFile_of_fits {r : FileResult} {o e : Nat} (ho : o < 2 ^ 64) (he : e < 2 ^ 64)
    (hp : r.payload.length < 2 ^ 64) (s : State) :
    installFile r o e s =
      .next (((((s.setObuf r.payload).setSizes o e).setKey r.key).setRk r.roundKeys).setSt zeroBlock) := by
  simp only [installFile, (fitsLen_iff o).2 ho, (fitsLen_iff e).2 he, Bool.and_self, if_true,
    withOutput_of_fits hp]

/-- A command that answers a next state was ignored in the fault state, or completed, or raised and entered its fault. -/
theorem exec_next {i : Instr} (h : exec i s = .next t) :
    (s.fault = true ∧ i ≠ .rst ∧ t = s) ∨ ((s.fault = false ∨ i = .rst) ∧ Completes i s t) ∨
      (s.fault = false ∧ ∃ e, Raises i s e ∧ t = enterFault e (encode i) s) := by
  by_cases hi : i = .rst
  · subst hi
    exact .inr (.inl ⟨.inr rfl, (Host.Outcome.next.inj h).symm⟩)
  cases hf : s.fault with
  | true =>
    rw [exec_of_fault hi hf] at h
    exact .inl ⟨rfl, hi, (Host.Outcome.next.inj h).symm⟩
  | false =>
    have key : Completes i s t ∨ ∃ e, Raises i s e ∧ t = enterFault e (encode i) s := by
      cases i with
      | gfmul => exact .inl (Host.Outcome.next.inj ((ifReady_of_ready hf _).symm.trans h)).symm
      | subb => exact .inl (Host.Outcome.next.inj ((ifReady_of_ready hf _).symm.trans h)).symm
      | shrow => exact .inl (Host.Outcome.next.inj ((ifReady_of_ready hf _).symm.trans h)).symm
      | mixc => exact .inl (Host.Outcome.next.inj ((ifReady_of_ready hf _).symm.trans h)).symm
      | isubb => exact .inl (Host.Outcome.next.inj ((ifReady_of_ready hf _).symm.trans h)).symm
      | ishrow => exact .inl (Host.Outcome.next.inj ((ifReady_of_ready hf _).symm.trans h)).symm
      | imixc => exact .inl (Host.Outcome.next.inj ((ifReady_of_ready hf _).symm.trans h)).symm
      | keyexp => exact .inl (Host.Outcome.next.inj ((ifReady_of_ready hf _).symm.trans h)).symm
      | encb => exact .inl (Host.Outcome.next.inj ((ifReady_of_ready hf _).symm.trans h)).symm
      | decb => exact .inl (Host.Outcome.next.inj ((ifReady_of_ready hf _).symm.trans h)).symm
      | otoi => exact .inl (Host.Outcome.next.inj ((ifReady_of_ready hf _).symm.trans h)).symm
      | rst => exact absurd rfl hi
      | addrk rnd =>
        replace h := (ifReady_of_ready hf _).symm.trans h
        cases hr : roundIndex rnd with
        | some r => rw [hr] at h; exact .inl ⟨r, hr, (Host.Outcome.next.inj h).symm⟩
        | none => rw [hr] at h; exact .inr ⟨_, ⟨hr, rfl⟩, (Host.Outcome.next.inj h).symm⟩
      | pad => exact .inl (withOutput_next ((ifReady_of_ready hf _).symm.trans h))
      | b64e => exact .inl (withOutput_next ((ifReady_of_ready hf _).symm.trans h))
      | keyld =>
        rcases orRaise_next ((ifReady_of_ready hf _).symm.trans h) with ⟨a, ha, h⟩ | ⟨e, he, rfl⟩
        · exact .inl ⟨a, ha, (Host.Outcome.next.inj h).symm⟩
        · exact .inr ⟨e, he, rfl⟩
      | unpad =>
        rcases orRaise_next ((ifReady_of_ready hf _).symm.trans h) with ⟨a, ha, h⟩ | ⟨e, he, rfl⟩
        · exact .inl ⟨a, ha, withOutput_next h⟩
        · exact .inr ⟨e, he, rfl⟩
      | b64d =>
        rcases orRaise_next ((ifReady_of_ready hf _).symm.trans h) with ⟨a, ha, h⟩ | ⟨e, he, rfl⟩
        · exact .inl ⟨a, ha, withOutput_next h⟩
        · exact .inr ⟨e, he, rfl⟩
      | ecbe =>
        rcases orRaise_next ((ifReady_of_ready hf _).symm.trans h) with ⟨a, ha, h⟩ | ⟨e, he, rfl⟩
        · exact .inl ⟨a, ha, withOutput_next h⟩
        · exact .inr ⟨e, he, rfl⟩
      | ecbd =>
        rcases orRaise_next ((ifReady_of_ready hf _).symm.trans h) with ⟨a, ha, h⟩ | ⟨e, he, rfl⟩
        · exact .inl ⟨a, ha, withOutput_next h⟩
        · exact .inr ⟨e, he, rfl⟩
      | encf =>
        rcases orRaise_next ((ifReady_of_ready hf _).symm.trans h) with ⟨a, ha, h⟩ | ⟨e, he, rfl⟩
        · obtain ⟨ho, -, hp, ht⟩ := installFile_next h
          exact .inl ⟨a, ha, ho, hp, ht⟩
        · exact .inr ⟨e, he, rfl⟩
      | decf =>
        rcases orRaise_next ((ifReady_of_ready hf _).symm.trans h) with ⟨a, ha, h⟩ | ⟨e, he, rfl⟩
        · obtain ⟨-, he, hp, ht⟩ := installFile_next h
          exact .inl ⟨a, ha, hp, he, ht⟩
        · exact .inr ⟨e, he, rfl⟩
    exact key.elim (fun h => .inr (.inl ⟨.inl rfl, h⟩)) fun h => .inr (.inr ⟨rfl, h⟩)

end Sys2Proof.Machine
end

