-- ==== Sys2Proof/Laws/Field.lean ====
section
/-! SUPPORT. The multiplier is linear in each operand (40_gf_arithmetic.md R81, R83), and a linear map of bytes is
determined by the eight powers of x. -/

namespace Sys2Proof.Machine

theorem xtime_xor (a b : Byte) : xtime (a ^^^ b) = xtime a ^^^ xtime b := by
  unfold xtime
  rw [BitVec.shiftLeft_xor_distrib, BitVec.getLsbD_xor]
  generalize a <<< 1 = x
  generalize b <<< 1 = y
  cases a.getLsbD 7 <;> cases b.getLsbD 7
  · simp
  · simp [BitVec.xor_assoc]
  · simp only [Bool.bne_false, if_true, Bool.false_eq_true, if_false, BitVec.xor_zero]
    ac_rfl
  · have h : (0x1b#8 ^^^ 0x1b#8) = 0#8 := by decide
    simp only [bne_self_eq_false, if_true, Bool.false_eq_true, if_false, BitVec.xor_zero]
    rw [show x ^^^ 0x1b#8 ^^^ (y ^^^ 0x1b#8) = (x ^^^ y) ^^^ (0x1b#8 ^^^ 0x1b#8) by ac_rfl, h, BitVec.xor_zero]

/-- The accumulator of the loop is added to its result. -/
theorem gmulLoop_acc (n : Nat) (a b p q : Byte) : gmulLoop n a b (p ^^^ q) = gmulLoop n a b p ^^^ q := by
  induction n generalizing a b p with
  | zero => rfl
  | succ n ih =>
    simp only [gmulLoop]
    cases b.getLsbD 0
    · exact ih _ _ _
    · simp only [if_true]
      rw [← ih, BitVec.xor_assoc, BitVec.xor_assoc, BitVec.xor_comm q a]

theorem gmulLoop_succ (n : Nat) (a b : Byte) :
    gmulLoop (n + 1) a b 0#8 = gmulLoop n (xtime a) (b >>> 1) 0#8 ^^^ (if b.getLsbD 0 then a else 0#8) := by
  rw [← gmulLoop_acc]
  simp only [gmulLoop]
  cases b.getLsbD 0 <;> simp

theorem gmulLoop_xor_left (n : Nat) (a a' b : Byte) :
    gmulLoop n (a ^^^ a') b 0#8 = gmulLoop n a b 0#8 ^^^ gmulLoop n a' b 0#8 := by
  induction n generalizing a a' b with
  | zero => simp [gmulLoop]
  | succ n ih =>
    rw [gmulLoop_succ, gmulLoop_succ, gmulLoop_succ, xtime_xor, ih]
    cases b.getLsbD 0
    · simp
    · simp only [if_true]
      ac_rfl

theorem gmulLoop_xor_right (n : Nat) (a b b' : Byte) :
    gmulLoop n a (b ^^^ b') 0#8 = gmulLoop n a b 0#8 ^^^ gmulLoop n a b' 0#8 := by
  induction n generalizing a b b' with
  | zero => simp [gmulLoop]
  | succ n ih =>
    rw [gmulLoop_succ, gmulLoop_succ, gmulLoop_succ, BitVec.ushiftRight_xor_distrib, ih, BitVec.getLsbD_xor]
    generalize gmulLoop n (xtime a) (b >>> 1) 0#8 = x
    generalize gmulLoop n (xtime a) (b' >>> 1) 0#8 = y
    cases b.getLsbD 0 <;> cases b'.getLsbD 0
    · simp
    · simp [BitVec.xor_assoc]
    · simp only [Bool.bne_false, if_true, Bool.false_eq_true, if_false, BitVec.xor_zero]
      ac_rfl
    · simp only [bne_self_eq_false, if_true, Bool.false_eq_true, if_false, BitVec.xor_zero]
      rw [show x ^^^ a ^^^ (y ^^^ a) = (x ^^^ y) ^^^ (a ^^^ a) by ac_rfl, BitVec.xor_self, BitVec.xor_zero]

theorem gmul_xor_left (a a' b : Byte) : gmul (a ^^^ a') b = gmul a b ^^^ gmul a' b := gmulLoop_xor_left 8 a a' b

theorem gmul_xor_right (a b b' : Byte) : gmul a (b ^^^ b') = gmul a b ^^^ gmul a b' := gmulLoop_xor_right 8 a b b'

/-- Two linear maps that agree on the powers of x are equal. -/
theorem linear_ext {n : Nat} {f g : Byte → BitVec n} (hf : ∀ a b, f (a ^^^ b) = f a ^^^ f b)
    (hg : ∀ a b, g (a ^^^ b) = g a ^^^ g b) (h : ∀ i : Fin 8, f (1#8 <<< i.val) = g (1#8 <<< i.val)) (a : Byte) :
    f a = g a := by
  have f0 : f 0#8 = 0#n := by simpa using hf 0#8 0#8
  have g0 : g 0#8 = 0#n := by simpa using hg 0#8 0#8
  have key : ∀ i : Fin 8, ∀ c : Bool, f (if c then 1#8 <<< i.val else 0#8) = g (if c then 1#8 <<< i.val else 0#8) := by
    intro i c
    cases c
    · simp [f0, g0]
    · simpa using h i
  have split : ∀ a : Byte, a = (if a.getLsbD 0 then 1#8 <<< 0 else 0#8) ^^^ ((if a.getLsbD 1 then 1#8 <<< 1 else 0#8) ^^^
      ((if a.getLsbD 2 then 1#8 <<< 2 else 0#8) ^^^ ((if a.getLsbD 3 then 1#8 <<< 3 else 0#8) ^^^
      ((if a.getLsbD 4 then 1#8 <<< 4 else 0#8) ^^^ ((if a.getLsbD 5 then 1#8 <<< 5 else 0#8) ^^^
      ((if a.getLsbD 6 then 1#8 <<< 6 else 0#8) ^^^ (if a.getLsbD 7 then 1#8 <<< 7 else 0#8))))))) := by decide +kernel
  have k (i : Nat) (hi : i < 8) (c : Bool) := key ⟨i, hi⟩ c
  rw [split a]
  simp only [hf, hg]
  have e0 := k 0 (by decide) (a.getLsbD 0)
  have e1 := k 1 (by decide) (a.getLsbD 1)
  have e2 := k 2 (by decide) (a.getLsbD 2)
  have e3 := k 3 (by decide) (a.getLsbD 3)
  have e4 := k 4 (by decide) (a.getLsbD 4)
  have e5 := k 5 (by decide) (a.getLsbD 5)
  have e6 := k 6 (by decide) (a.getLsbD 6)
  have e7 := k 7 (by decide) (a.getLsbD 7)
  simp only at e0 e1 e2 e3 e4 e5 e6 e7
  rw [e0, e1, e2, e3, e4, e5, e6, e7]

end Sys2Proof.Machine
end

