-- ==== Sys2Proof/Laws/Memory.lean ====
section
/-! SUPPORT. The form of the memories, `Memory.wf`, holds at reset and is kept by every write of a buffer or of the key
input, by fault entry and by reset. -/

namespace Sys2Proof.Machine

variable {s : State}

/-- What the form says, part by part. -/
theorem Memory.wf_iff : Memory.wf s = true ↔
    s.ibuf.length < 2 ^ 64 ∧ s.obuf.length < 2 ^ 64 ∧ s.keyin.length < 2 ^ 64 ∧
      keyInputLegal s.ktag s.keyin = true := by
  simp [Memory.wf, fitsBuffer_iff, fitsKeyin_iff, and_assoc]

theorem Memory.wf_reset : Memory.wf State.reset = true := by decide

/-- Writes that leave buffers and key input alone keep the form. -/
theorem Memory.wf_congr {t : State} (hi : t.ibuf = s.ibuf) (ho : t.obuf = s.obuf) (hk : t.ktag = s.ktag)
    (he : t.keyin = s.keyin) : Memory.wf t = Memory.wf s := by
  simp [Memory.wf, hi, ho, hk, he]

theorem Memory.wf_setIbuf {bs : List Byte} (h : Memory.wf s = true) (hb : bs.length < 2 ^ 64) :
    Memory.wf (s.setIbuf bs) = true := by
  obtain ⟨-, h2, h3, h4⟩ := Memory.wf_iff.1 h
  exact Memory.wf_iff.2 ⟨hb, h2, h3, h4⟩

theorem Memory.wf_setObuf {bs : List Byte} (h : Memory.wf s = true) (hb : bs.length < 2 ^ 64) :
    Memory.wf (s.setObuf bs) = true := by
  obtain ⟨h1, -, h3, h4⟩ := Memory.wf_iff.1 h
  exact Memory.wf_iff.2 ⟨h1, hb, h3, h4⟩

theorem Memory.wf_setKeyInput {tag : BitVec 2} {es : List Elem} (h : Memory.wf s = true)
    (hb : es.length < 2 ^ 64) (hl : keyInputLegal tag es = true) : Memory.wf (s.setKeyInput tag es) = true := by
  obtain ⟨h1, h2, -, -⟩ := Memory.wf_iff.1 h
  exact Memory.wf_iff.2 ⟨h1, h2, hb, hl⟩

/-- The hand-over of OTOI keeps the form. -/
theorem Memory.wf_handOver (h : Memory.wf s = true) : Memory.wf ((s.setIbuf s.obuf).setObuf []) = true := by
  obtain ⟨-, h2, h3, h4⟩ := Memory.wf_iff.1 h
  exact Memory.wf_iff.2 ⟨h2, by simp, h3, h4⟩

theorem Memory.wf_enterFault (e : FaultCause) (c : CmdWord) (h : Memory.wf s = true) :
    Memory.wf (enterFault e c s) = true := by
  obtain ⟨h1, -, h3, h4⟩ := Memory.wf_iff.1 h
  exact Memory.wf_iff.2 ⟨h1, by simp, h3, h4⟩

theorem Memory.wf_resetCore : Memory.wf (resetCore s) = true := by
  simp only [Memory.wf_congr (s := State.reset) (t := resetCore s) rfl rfl rfl rfl, Memory.wf_reset]

end Sys2Proof.Machine
end

