-- ==== Sys2Proof/Laws/PerInstr.lean ====
section
/-! SUPPORT. A law of every command's encoding, one lemma per constructor (LAWS.json, family Encoding). -/

namespace Sys2Proof.Laws.Encoding

/-- "Bits 15:12 are zero in every legal command" (30_encoding.md R60), and only ADDRK has a non-zero `rnd` field. -/
def Statement (i : Instr) : Prop :=
  highField (encode i) = 0#4 ∧ (rndField (encode i) ≠ 0#4 → opField (encode i) = addrkOp)

theorem gfmul : Statement .gfmul := by unfold Statement; decide
theorem subb : Statement .subb := by unfold Statement; decide
theorem shrow : Statement .shrow := by unfold Statement; decide
theorem mixc : Statement .mixc := by unfold Statement; decide
theorem addrk (rnd : BitVec 4) : Statement (.addrk rnd) := by unfold Statement; revert rnd; decide
theorem isubb : Statement .isubb := by unfold Statement; decide
theorem ishrow : Statement .ishrow := by unfold Statement; decide
theorem imixc : Statement .imixc := by unfold Statement; decide
theorem keyexp : Statement .keyexp := by unfold Statement; decide
theorem keyld : Statement .keyld := by unfold Statement; decide
theorem pad : Statement .pad := by unfold Statement; decide
theorem unpad : Statement .unpad := by unfold Statement; decide
theorem encb : Statement .encb := by unfold Statement; decide
theorem decb : Statement .decb := by unfold Statement; decide
theorem ecbe : Statement .ecbe := by unfold Statement; decide
theorem ecbd : Statement .ecbd := by unfold Statement; decide
theorem b64e : Statement .b64e := by unfold Statement; decide
theorem b64d : Statement .b64d := by unfold Statement; decide
theorem encf : Statement .encf := by unfold Statement; decide
theorem decf : Statement .decf := by unfold Statement; decide
theorem otoi : Statement .otoi := by unfold Statement; decide
theorem rst : Statement .rst := by unfold Statement; decide

end Sys2Proof.Laws.Encoding
end

