-- ==== Sys2Proof/Laws/Windows.lean ====
section
/-! SUPPORT. What one element of each data window reads as (20_memory.md R40, R49), and that a byte written to one reads
back, every other byte being as before (R48). -/

namespace Sys2Proof.Machine

theorem getD_map_toNat {n : Nat} (l : List (BitVec n)) (a : Nat) : (l.map BitVec.toNat).getD a 0 = (l.getD a 0#n).toNat := by
  simp only [List.getD_eq_getElem?_getD, List.getElem?_map]
  cases l[a]? <;> simp

theorem getD_of_lt {α : Type} (l : List α) (d : α) {a : Nat} (h : a < l.length) : l.getD a d = l[a] := by
  simp [h]

theorem getD_of_ge {α : Type} (l : List α) (d : α) {a : Nat} (h : l.length ≤ a) : l.getD a d = d := by
  simp [h]

theorem readElem_ibuf (a : Nat) (s : State) : readElem .ibuf a s = (s.ibuf.getD a 0#8).toNat := getD_map_toNat _ a

theorem readElem_obuf (a : Nat) (s : State) : readElem .obuf a s = (s.obuf.getD a 0#8).toNat := getD_map_toNat _ a

theorem readElem_keyin (a : Nat) (s : State) : readElem .keyin a s = (s.keyin.getD a 0#21).toNat := getD_map_toNat _ a

theorem blockRead (b : Block) (a : Nat) :
    (b.toList.map BitVec.toNat).getD a 0 = if h : a < 16 then b[a].toNat else 0 := by
  rw [getD_map_toNat]
  split
  · rename_i h
    rw [getD_of_lt _ _ (by simpa using h), Vector.getElem_toList]
  · rename_i h
    rw [getD_of_ge _ _ (by simpa using h)]
    rfl

theorem readElem_st (a : Nat) (s : State) : readElem .st a s = if h : a < 16 then s.st[a].toNat else 0 := blockRead _ a

theorem readElem_key (a : Nat) (s : State) : readElem .key a s = if h : a < 16 then s.key[a].toNat else 0 :=
  blockRead _ a

/-- Element `a` of equally long lists joined. -/
theorem getElem?_flatten {α : Type} {k : Nat} (hk : 0 < k) (ls : List (List α)) (hl : ∀ l ∈ ls, l.length = k) (a : Nat) :
    ls.flatten[a]? = ls[a / k]?.bind fun l => l[a % k]? := by
  induction ls generalizing a with
  | nil => simp
  | cons l ls ih =>
    have hlen : l.length = k := hl l (by simp)
    rw [List.flatten_cons]
    by_cases h : a < k
    · rw [List.getElem?_append_left (by omega), Nat.div_eq_of_lt h, Nat.mod_eq_of_lt h]
      simp
    · have h' : k ≤ a := Nat.le_of_not_lt h
      rw [List.getElem?_append_right (by omega), ih (fun l hm => hl l (by simp [hm])), hlen,
        Nat.div_eq_sub_div hk h', List.getElem?_cons_succ, ← Nat.mod_eq_sub_mod h']

theorem readElem_rk (a : Nat) (s : State) :
    readElem .rk a s = if h : a / 16 < 11 then (s.rk[a / 16][a % 16]'(Nat.mod_lt _ (by decide))).toNat else 0 := by
  have hm : a % 16 < 16 := Nat.mod_lt _ (by decide)
  simp only [readElem, windowElems]
  rw [getD_map_toNat, List.getD_eq_getElem?_getD, List.flatMap_def,
    getElem?_flatten (k := 16) (by decide) _ (by simp)]
  split
  · rename_i h
    simp [h, hm]
  · rename_i h
    simp [h]

/-- One byte of a block written and read. -/
theorem setByte_get (b : Block) (i a : Nat) (v : Byte) (h : a < 16) :
    (setByte b i v)[a] = if a = i then v else b[a] := by
  simp only [setByte, Vector.getElem_setIfInBounds, eq_comm]

/-- One byte of the round-key file written and read. -/
theorem setRkByte_get (ks : RoundKeys) (i r j : Nat) (v : Byte) (hr : r < 11) (hj : j < 16) :
    (setRkByte ks i v)[r][j] = if 16 * r + j = i then v else ks[r][j] := by
  unfold setRkByte
  split
  · rename_i h
    by_cases hi : i / 16 = r
    · subst hi
      simp only [Vector.getElem_set_self, setByte_get _ _ _ _ hj]
      congr 1
      exact propext ⟨fun h => by omega, fun h => by omega⟩
    · simp only [Vector.getElem_set_ne _ _ hi]
      rw [if_neg (by omega)]
  · rename_i h
    rw [if_neg (by omega)]

end Sys2Proof.Machine
end

