-- ==== Sys2Proof/Tests/Slice0.lean ====
section
/-! SUPPORT. Tests of the model against values printed in spec/ (the rule or the section of 95_test_vectors.md each comes
from stands beside it), the smoke test of the well-formedness check, and a witness for the hypotheses of every
statement that has some. -/

namespace Sys2Proof.Tests
open Sys2Proof.Machine

/-! ### Helpers -/

/-- Sixteen bytes, most significant pair first, as the spec prints a block. -/
def blk (n : Nat) : Block := Vector.ofFn fun i => BitVec.ofNat 8 (n >>> (8 * (15 - i.val)))

/-- The bytes 00 01 .. 0f (`T` of 95_test_vectors.md 2.2). -/
def blkT : Block := blk 0x000102030405060708090a0b0c0d0e0f

/-- Sixteen characters as KEYIN elements. -/
def text (n : Nat) : List Elem := (blk n).toList.map (BitVec.setWidth 21)

/-- The key text `abcdefghijklmnop`. -/
def keyText : List Elem := text 0x6162636465666768696a6b6c6d6e6f70

/-- The hex key `0123456789ABCDEFfedcba9876543210` (95_test_vectors.md 2.4). -/
def keyHex : List Elem := codePoints
  ['0', '1', '2', '3', '4', '5', '6', '7', '8', '9', 'A', 'B', 'C', 'D', 'E', 'F',
   'f', 'e', 'd', 'c', 'b', 'a', '9', '8', '7', '6', '5', '4', '3', '2', '1', '0']

/-- The text `HELLO`. -/
def hello : List Byte := [0x48#8, 0x45#8, 0x4c#8, 0x4c#8, 0x4f#8]

/-- The ciphertext C of HELLO under `keyText` (95_test_vectors.md E1). -/
def cipherC : List Byte := (blk 0xb81af6ec403183df593501f75d7dc03b).toList

/-- Schedule S1 of 95_test_vectors.md 2.3. -/
def schedule1 : RoundKeys := #v[
  blk 0x2b7e151628aed2a6abf7158809cf4f3c, blk 0xa0fafe1788542cb123a339392a6c7605,
  blk 0xf2c295f27a96b9435935807a7359f67f, blk 0x3d80477d4716fe3e1e237e446d7a883b,
  blk 0xef44a541a8525b7fb671253bdb0bad00, blk 0xd4d1c6f87c839d87caf2b8bc11f915bc,
  blk 0x6d88a37a110b3efddbf98641ca0093fd, blk 0x4e54f70e5f5fc9f384a64fb24ea6dc4f,
  blk 0xead27321b58dbad2312bf5607f8d292f, blk 0xac7766f319fadc2128d12941575c006e,
  blk 0xd014f9a8c9ee2589e13f0cc8b6630ca6]

/-- Schedule S4 of 95_test_vectors.md 2.3. -/
def schedule4 : RoundKeys := #v[
  blk 0x6162636465666768696a6b6c6d6e6f70, blk 0xffca32589aac5530f3c63e5c9ea8512c,
  blk 0x3f1b4353a5b716635671283fc8d97913, blk 0x0ead3ebbab1a28d8fd6b00e735b279f4,
  blk 0x311b812d9a01a9f5676aa91252d8d0e6, blk 0x406b0f2dda6aa6d8bd000fcaefd8df2c,
  blk 0x01f57ef2db9fd82a669fd7e0894708cc, blk 0xe1c535553a5aed7f5cc53a9fd5823253,
  blk 0x72e6d85648bc352914790fb6c1fb3de5, blk 0x66c1012e2e7d34073a043bb1fbff0654,
  blk 0x46ae212168d3152652d72e97a92828c3]

/-- Reset with this block in ST and S1 in RK. -/
def withBlock (n : Nat) : State := { State.reset with st := blk n, rk := schedule1 }

/-- Reset with these bytes in IBUF. -/
def withIbuf (bs : List Byte) : State := { State.reset with ibuf := bs }

/-- Reset with the text key `keyText` and these bytes in IBUF. -/
def keyed (bs : List Byte) : State := { State.reset with ktag := tagStr, keyin := keyText, ibuf := bs }

/-- A state with a pending fault. -/
def faulted : State := enterFault .invalidPadding 0x0031#16 State.reset

/-- ST after a command that completes. -/
def stIs (r : Result) (n : Nat) : Bool := nextIs r fun t => decide (t.st = blk n)

/-- OBUF after a command that completes without a fault. -/
def obufIs (r : Result) (bs : List Byte) : Bool := nextIs r fun t => decide (t.obuf = bs ∧ t.fault = false)

/-- STATUS and FCMD after a command. -/
def statusIs (r : Result) (st fc : Nat) : Bool :=
  nextIs r fun t => decide ((statusReg t).toNat = st ∧ t.fcmd.toNat = fc ∧ t.obuf = [] ∧ t.st = zeroBlock)

/-- Did a function return a value? -/
def isOk {α : Type} (r : Except FaultCause α) : Bool :=
  match r with
  | .ok _ => true
  | .error _ => false

theorem isOk_elim {α : Type} {r : Except FaultCause α} (h : isOk r = true) : ∃ a, r = .ok a := by
  cases r with
  | ok a => exact ⟨a, rfl⟩
  | error e => cases h

theorem nextIs_elim {r : Result} {p : State → Bool} (h : nextIs r p = true) : ∃ t, r = .next t ∧ p t = true := by
  cases r with
  | next t => exact ⟨t, rfl, h⟩
  | fault e => cases h
  | refused e => cases h

/-! ### Well-formedness: the one check refuses its ill-formed terms (R61) -/

theorem smoke_rnd_eleven_refused : Instr.wellFormed (.addrk 11#4) = false := by decide
theorem smoke_rnd_fifteen_refused : Instr.wellFormed (.addrk 15#4) = false := by decide
theorem smoke_rnd_ten_accepted : Instr.wellFormed (.addrk 10#4) = true := by decide

/-! ### Decoding: words written out from the bit fields of R60 and the opcode map R62 -/

theorem test_decode_gfmul : decode 0b0000000000000001#16 = .ok .gfmul := by decide
theorem test_decode_subb : decode 0b0000000000010000#16 = .ok .subb := by decide
theorem test_decode_shrow : decode 0b0000000000010001#16 = .ok .shrow := by decide
theorem test_decode_mixc : decode 0b0000000000010010#16 = .ok .mixc := by decide
theorem test_decode_addrk_3 : decode 0b0000001100010011#16 = .ok (.addrk 3#4) := by decide
theorem test_decode_addrk_10 : decode 0b0000101000010011#16 = .ok (.addrk 10#4) := by decide
theorem test_decode_isubb : decode 0b0000000000010100#16 = .ok .isubb := by decide
theorem test_decode_ishrow : decode 0b0000000000010101#16 = .ok .ishrow := by decide
theorem test_decode_imixc : decode 0b0000000000010110#16 = .ok .imixc := by decide
theorem test_decode_keyexp : decode 0b0000000000100000#16 = .ok .keyexp := by decide
theorem test_decode_keyld : decode 0b0000000000100001#16 = .ok .keyld := by decide
theorem test_decode_pad : decode 0b0000000000110000#16 = .ok .pad := by decide
theorem test_decode_unpad : decode 0b0000000000110001#16 = .ok .unpad := by decide
theorem test_decode_encb : decode 0b0000000001000000#16 = .ok .encb := by decide
theorem test_decode_decb : decode 0b0000000001000001#16 = .ok .decb := by decide
theorem test_decode_ecbe : decode 0b0000000001000010#16 = .ok .ecbe := by decide
theorem test_decode_ecbd : decode 0b0000000001000011#16 = .ok .ecbd := by decide
theorem test_decode_b64e : decode 0b0000000001010000#16 = .ok .b64e := by decide
theorem test_decode_b64d : decode 0b0000000001010001#16 = .ok .b64d := by decide
theorem test_decode_encf : decode 0b0000000001100000#16 = .ok .encf := by decide
theorem test_decode_decf : decode 0b0000000001100001#16 = .ok .decf := by decide
theorem test_decode_otoi : decode 0b0000000001110000#16 = .ok .otoi := by decide
theorem test_decode_rst : decode 0b0000000001111111#16 = .ok .rst := by decide

/-- The illegal words of 95_test_vectors.md 2.10. -/
theorem test_decode_illegal :
    [0x0B13#16, 0x0F13#16, 0x1013#16, 0x0110#16, 0x0000#16, 0x0002#16, 0x0017#16, 0x0022#16, 0x0044#16, 0x0062#16,
      0x0071#16, 0x007E#16, 0x017F#16, 0x807F#16, 0x0080#16, 0x00FF#16, 0xFFFF#16].all
      (fun c => match decode c with | .ok _ => false | .error _ => true) = true := by decide

theorem test_table_word_subb : decodeTableWord 16 0x0010 = some .subb := by decide
theorem test_table_word_illegal : decodeTableWord 16 0x0017 = none := by decide

/-! ### The commands -/

/-- 95_test_vectors.md 2.1. -/
theorem test_gfmul_57_83 :
    nextIs (exec .gfmul { State.reset with gfa := 0x57#8, gfb := 0x83#8 }) (fun t => decide (t.gfp = 0xc1#8)) = true := by
  decide
theorem test_gmul_table :
    (gmul 0x02#8 0x80#8, gmul 0x03#8 0xff#8, gmul 0x53#8 0xca#8, gmul 0xff#8 0xff#8, gmul 0xb6#8 0x53#8) =
      (0x1b#8, 0x1a#8, 0x01#8, 0x13#8, 0x36#8) := by decide

/-- R93 and 95_test_vectors.md 3, P1. -/
theorem test_subb : stIs (exec .subb (withBlock 0x193de3bea0f4e22b9ac68d2ae9f84808)) 0xd42711aee0bf98f1b8b45de51e415230 = true := by
  decide
/-- R94. -/
theorem test_shrow : stIs (exec .shrow { State.reset with st := blkT }) 0x00050a0f04090e03080d02070c01060b = true := by
  decide
/-- R96. -/
theorem test_mixc : stIs (exec .mixc { State.reset with st := blkT }) 0x02070005060304010a0f080d0e0b0c09 = true := by
  decide
/-- 95_test_vectors.md 2.2. -/
theorem test_addrk_0 : stIs (exec (.addrk 0#4) (withBlock 0x000102030405060708090a0b0c0d0e0f)) 0x2b7f17152cabd4a1a3fe1f8305c24133 = true := by
  decide
theorem test_addrk_10 : stIs (exec (.addrk 10#4) (withBlock 0x000102030405060708090a0b0c0d0e0f)) 0xd015fbabcdeb238ee93606c3ba6e02a9 = true := by
  decide
/-- R98. -/
theorem test_isubb : stIs (exec .isubb { State.reset with st := blkT }) 0x52096ad53036a538bf40a39e81f3d7fb = true := by
  decide
/-- R99. -/
theorem test_ishrow : stIs (exec .ishrow { State.reset with st := blkT }) 0x000d0a0704010e0b0805020f0c090603 = true := by
  decide
/-- R101. -/
theorem test_imixc : stIs (exec .imixc { State.reset with st := blkT }) 0x0a0f080d0e0b0c090207000506030401 = true := by
  decide

/-- R114: the last round key of schedule S1. -/
theorem test_keyexp :
    nextIs (exec .keyexp { State.reset with key := blk 0x2b7e151628aed2a6abf7158809cf4f3c })
      (fun t => decide (t.rk[1] = schedule1[1] ∧ t.rk[10] = schedule1[10])) = true := by decide

/-- 95_test_vectors.md 2.4, case S1, the digit order. -/
theorem test_keyld_hex :
    nextIs (exec .keyld { State.reset with ktag := tagStr, keyin := keyHex })
      (fun t => decide (t.key = blk 0x0123456789abcdeffedcba9876543210)) = true := by decide
/-- 95_test_vectors.md 2.4, case S4. -/
theorem test_keyld_non_ascii :
    statusIs (exec .keyld { State.reset with ktag := tagStr, keyin := List.replicate 16 0x20AC#21 }) 0x21 0x0021 = true := by
  decide

/-- R131. -/
theorem test_pad :
    obufIs (exec .pad (withIbuf [0x53#8, 0x45#8, 0x56#8, 0x4d#8, 0x54#8, 0x45#8, 0x38#8, 0x3d#8]))
      (blk 0x5345564d5445383d0808080808080808).toList = true := by decide
theorem test_pad_empty : obufIs (exec .pad (withIbuf [])) (List.replicate 16 0x10#8) = true := by decide
/-- R133. -/
theorem test_unpad : obufIs (exec .unpad (withIbuf [0x41#8, 0x01#8])) [0x41#8] = true := by decide
theorem test_unpad_mismatch : statusIs (exec .unpad (withIbuf [0x41#8, 0x02#8, 0x03#8, 0x03#8])) 0x51 0x0031 = true := by
  decide

/-- 95_test_vectors.md 1.2, K6. -/
theorem test_encb : stIs (exec .encb (withBlock 0x3243f6a8885a308d313198a2e0370734)) 0x3925841d02dc09fbdc118597196a0b32 = true := by
  decide +kernel
theorem test_decb : stIs (exec .decb (withBlock 0x3925841d02dc09fbdc118597196a0b32)) 0x3243f6a8885a308d313198a2e0370734 = true := by
  decide +kernel

/-- R145. -/
theorem test_ecbe :
    obufIs (exec .ecbe { withIbuf (blk 0x5345564d5445383d0808080808080808).toList with rk := schedule4, st := blkT })
      cipherC = true := by decide +kernel
theorem test_ecbe_ragged : statusIs (exec .ecbe (withIbuf (List.replicate 17 0#8))) 0x41 0x0042 = true := by decide
/-- R146. -/
theorem test_ecbd :
    obufIs (exec .ecbd { withIbuf cipherC with rk := schedule4 }) (blk 0x5345564d5445383d0808080808080808).toList = true := by
  decide +kernel

/-- R157. -/
theorem test_b64e :
    obufIs (exec .b64e (withIbuf hello)) [0x53#8, 0x45#8, 0x56#8, 0x4d#8, 0x54#8, 0x45#8, 0x38#8, 0x3d#8] = true := by
  decide
/-- 95_test_vectors.md 2.7: `+/8=`. -/
theorem test_b64e_symbols : obufIs (exec .b64e (withIbuf [0xfb#8, 0xff#8])) [0x2b#8, 0x2f#8, 0x38#8, 0x3d#8] = true := by
  decide
/-- R159. -/
theorem test_b64d :
    obufIs (exec .b64d (withIbuf [0x53#8, 0x45#8, 0x56#8, 0x4d#8, 0x54#8, 0x45#8, 0x38#8, 0x3d#8])) hello = true := by
  decide
/-- 95_test_vectors.md 2.7: `Zh==` is not canonical. -/
theorem test_b64d_not_canonical :
    statusIs (exec .b64d (withIbuf [0x5a#8, 0x68#8, 0x3d#8, 0x3d#8])) 0x61 0x0051 = true := by decide

/-- R171. -/
theorem test_encf :
    nextIs (exec .encf (keyed hello)) (fun t => decide (t.obuf = cipherC ∧ t.origSize = 5#64 ∧ t.encSize = 16#64)) = true := by
  decide +kernel
/-- R174. -/
theorem test_decf :
    nextIs (exec .decf (keyed cipherC)) (fun t => decide (t.obuf = hello ∧ t.origSize = 5#64 ∧ t.encSize = 16#64)) = true := by
  decide +kernel
theorem test_decf_wrong_key :
    statusIs (exec .decf { keyed cipherC with keyin := text 0x7a7a7a7a7a7a7a7a7a7a7a7a7a7a7a7a }) 0x71 0x0061 = true := by
  decide +kernel

/-- R185. -/
theorem test_otoi :
    nextIs (exec .otoi { withIbuf hello with obuf := [0x53#8] }) (fun t => decide (t.ibuf = [0x53#8] ∧ t.obuf = [])) = true := by
  decide
/-- R186: reset from the fault state. -/
theorem test_rst : exec .rst { faulted with key := blkT } = .next State.reset := by rfl
theorem test_ignored_when_faulted : nextIs (step (faulted.withFetchWord 16 0x0050)) (fun t => decide (t = faulted)) = true := by
  decide
theorem test_illegal_word : statusIs (step (State.reset.withFetchWord 16 0x0B13)) 0x81 0x0B13 = true := by decide

/-! ### The host's moves -/

/-- R48: RK index 16*r + j. -/
theorem test_write_rk :
    nextIs (hostMove (.writeData .rk 175 0xab#8) State.reset) (fun t => decide (t.rk[10][15] = 0xab#8)) = true := by decide
/-- R24, R20: STATUS after an unpad fault. -/
theorem test_read_status :
    nextIs (hostMove (.read (.reg 1)) faulted) (fun t => decide (t.host.got = [.value 0x51])) = true := by decide
/-- R66, R68: the listing of P2's first lines. -/
theorem test_listing :
    listing [.keyStr ['a', 'b'], .command (.addrk 3#4)] = [.loadKey tagStr [0x61#21, 0x62#21], .issue 0x0313#16] := by
  decide
theorem test_assemble : assemble "ADDRK" (some 3) = some (.addrk 3#4) ∧ assemble "OTOI" none = some .otoi := by decide

/-! ### Witnesses: states and operands that meet the hypotheses of each statement -/

theorem faulted_fault : faulted.fault = true := rfl

theorem witness_GmulObeysTheFieldLaws : (0x01#8 : Byte) ≠ 0x00#8 ∧ gmul 0x00#8 0xff#8 = 0x00#8 := by decide
theorem witness_SboxIsTheAffineMapOfTheInverse :
    gmul 0x53#8 0xca#8 = 0x01#8 ∧ ((0x00#8 : Byte) = 0x00#8 ∧ (0x00#8 : Byte) = 0x00#8) ∧ sbox 0x07#8 = sbox 0x07#8 := by
  decide
theorem witness_GfmulWritesTheProduct : State.reset.fault = false ∧ faulted.fault = true := by decide
theorem witness_SubbSubstitutesEveryByte : State.reset.fault = false ∧ faulted.fault = true := by decide
theorem witness_ShrowRotatesTheRows : State.reset.fault = false ∧ faulted.fault = true := by decide
theorem witness_MixcMultipliesTheColumns :
    State.reset.fault = false ∧ faulted.fault = true ∧ zeroBlock[4 * 3 + 1] = zeroBlock[4 * 3] ∧
      zeroBlock[4 * 3 + 2] = zeroBlock[4 * 3] ∧ zeroBlock[4 * 3 + 3] = zeroBlock[4 * 3] := by decide
theorem witness_AddrkXorsTheRoundKey :
    State.reset.fault = false ∧ faulted.fault = true ∧ State.reset.rk = zeroRoundKeys ∧ 10 ≤ 10 ∧ 11 ≤ 11 ∧ 11 ≤ 15 := by
  decide
theorem witness_IsubbAndIshrowComplete : State.reset.fault = false ∧ faulted.fault = true := by decide
theorem witness_ImixcMultipliesByTheInverseMatrix : State.reset.fault = false ∧ faulted.fault = true := by decide
theorem witness_InverseCommandsUndoForwardCommands : (withBlock 0x0102).fault = false := by decide
theorem witness_ExpandFollowsTheRecurrence :
    (1 ≤ 1 ∧ 1 < 10) ∧ (4 ≤ 4 ∧ 4 < 44 ∧ 4 ≤ 43 ∧ 43 < 44) ∧
      ∃ w p : KeyWord, w = scheduleWord blkT (43 - 4) ∧ p = scheduleWord blkT (43 - 1) :=
  ⟨by decide, by decide, _, _, rfl, rfl⟩
theorem witness_KeyexpInstallsTheSchedule : State.reset.fault = false ∧ faulted.fault = true := by decide
theorem all_replicate {n : Nat} {x : Elem} {p : Elem → Prop} (h : p x) : ∀ u ∈ List.replicate n x, p u :=
  fun _ hu => (List.eq_of_mem_replicate hu).symm ▸ h

theorem witness_NormalizeDecidesByTagAndLength :
    (List.replicate 16 0xff#21).length = 16 ∧ (List.replicate 17 0xff#21).length ≠ 16 ∧
    (List.replicate 32 0x66#21).length = 32 ∧ (∀ u ∈ List.replicate 32 0x66#21, isHexDigit u = true) ∧
    (List.replicate 32 0x67#21).length = 32 ∧ (∃ u ∈ List.replicate 32 0x67#21, isHexDigit u = false) ∧
    (∀ u ∈ List.replicate 16 0x7f#21, u.toNat < 0x80) ∧ (∃ u ∈ List.replicate 16 0x80#21, 0x80 ≤ u.toNat) ∧
    (List.replicate 15 0x61#21).length ≠ 16 ∧ (List.replicate 33 0x61#21).length ≠ 32 ∧
    ((2#2 : BitVec 2) = 2#2 ∨ (2#2 : BitVec 2) = 3#2) :=
  ⟨by decide, by decide, by decide, all_replicate (by decide), by decide, ⟨0x67#21, by decide, by decide⟩,
    all_replicate (by decide), ⟨0x80#21, by decide, by decide⟩, by decide, by decide, by decide⟩
theorem witness_HexKeysReadTheHighDigitFirst :
    (List.replicate 32 0x46#21).length = 32 ∧ (∀ u ∈ List.replicate 32 0x46#21, isHexDigit u = true) :=
  ⟨by decide, all_replicate (by decide)⟩
theorem witness_TextKeysAreTheirUtf8Bytes :
    (List.replicate 16 0x7f#21).length = 16 ∧ (utf8Text (List.replicate 16 0x7f#21)).length = 16 ∧
    (∀ u ∈ List.replicate 16 0x7f#21, u.toNat < 0x80) ∧
    (List.replicate 16 0x80#21).length = 16 ∧ (utf8Text (List.replicate 16 0x80#21)).length ≠ 16 :=
  ⟨by decide, by decide, all_replicate (by decide), by decide, by decide⟩
theorem witness_NormalizeIsIdempotent : normalize tagStr keyText = .ok (blk 0x6162636465666768696a6b6c6d6e6f70) := by
  decide
theorem witness_KeyldLoadsTheNormalisedKey :
    (keyed []).fault = false ∧ normalize (keyed []).ktag (keyed []).keyin = .ok (blk 0x6162636465666768696a6b6c6d6e6f70) ∧
    State.reset.fault = false ∧ normalize State.reset.ktag State.reset.keyin = .error .invalidKeyLength ∧
    faulted.fault = true := by decide
theorem witness_PadAppendsAndUnpadChecksThePadBytes :
    ([] : List Byte).length % 16 = 0 ∧ unpad (List.replicate 16 0x10#8) = .ok [] ∧ unpad [0x41#8, 0x11#8] = .error .invalidPadding := by decide
theorem witness_PadAndUnpadAreInverse :
    unpad (List.replicate 16 0x10#8) = .ok [] ∧ (List.replicate 16 0x10#8).length % 16 = 0 ∧ pad [] = pad [] := by decide
theorem witness_PadAndUnpadCommandsComplete :
    State.reset.fault = false ∧ 16 * (State.reset.ibuf.length / 16 + 1) < 2 ^ 64 ∧
    (withIbuf [0x41#8, 0x01#8]).ibuf = [0x41#8] ++ List.replicate 1 (BitVec.ofNat 8 1) ∧
    (withIbuf (List.replicate 16 0x10#8)).ibuf = [] ++ List.replicate 16 (BitVec.ofNat 8 16) ∧
    (withIbuf (List.replicate 16 0x10#8)).ibuf.length < 2 ^ 64 ∧ (withIbuf [0x41#8, 0x01#8]).fault = false ∧
    unpad State.reset.ibuf = .error .invalidPadding ∧ faulted.fault = true := by decide
theorem witness_EncbAndDecbEqualTheirRoundCommands : (withBlock 0x0102).fault = false ∧ faulted.fault = true := by decide
theorem witness_DecryptionInvertsEncryption : (withBlock 0x0102).fault = false := by decide
theorem witness_EcbWorksBlockByBlock :
    (List.replicate 17 0#8).length % 16 ≠ 0 ∧ (List.replicate 32 0#8).length % 16 = 0 ∧
      0 < (List.replicate 32 0#8).length / 16 ∧ 1 < (List.replicate 32 0#8).length / 16 := by decide
theorem witness_EcbHasNoChaining :
    isOk (ecbEncrypt (List.replicate 32 0x07#8) zeroRoundKeys) = true ∧ isOk (ecbEncrypt [] zeroRoundKeys) = true ∧
      0 < (List.replicate 32 0x07#8).length / 16 ∧ 1 < (List.replicate 32 0x07#8).length / 16 ∧
      slice (List.replicate 32 0x07#8) (16 * 0) 16 = slice (List.replicate 32 0x07#8) (16 * 1) 16 := by decide
theorem witness_EcbeAndEcbdComplete :
    (withIbuf (List.replicate 16 0#8)).fault = false ∧ (withIbuf (List.replicate 16 0#8)).ibuf.length % 16 = 0 ∧
    (withIbuf (List.replicate 16 0#8)).ibuf.length < 2 ^ 64 ∧ (withIbuf [0#8]).fault = false ∧
    (withIbuf [0#8]).ibuf.length % 16 ≠ 0 ∧ faulted.fault = true := by decide
theorem witness_B64EncodesGroupsOfThree : 0 < hello.length / 3 ∧ hello.length % 3 = 2 ∧ [0x66#8].length % 3 = 1 := by decide
theorem witness_B64DecodeInvertsEncode :
    b64Dec [0x5a#8, 0x67#8, 0x3d#8, 0x3d#8] = .ok [0x66#8] ∧ b64Dec [0x5a#8] = .error .invalidBase64 := by decide
theorem witness_Base64CommandsComplete :
    (withIbuf hello).fault = false ∧ 4 * (((withIbuf hello).ibuf.length + 2) / 3) < 2 ^ 64 ∧
    (withIbuf [0x5a#8, 0x67#8, 0x3d#8, 0x3d#8]).ibuf = b64Enc [0x66#8] ∧
    (withIbuf [0x5a#8, 0x67#8, 0x3d#8, 0x3d#8]).ibuf.length < 2 ^ 64 ∧
    b64Dec (withIbuf [0x5a#8]).ibuf = .error .invalidBase64 ∧ faulted.fault = true := by decide
theorem witness_LengthsFollowTheSizeLaws :
    (∃ r, encryptFile hello tagStr keyText = .ok r) ∧ b64Dec [0x5a#8, 0x67#8, 0x3d#8, 0x3d#8] = .ok [0x66#8] ∧
      0x5a#8 ∈ b64Enc [0x66#8] :=
  ⟨isOk_elim (by decide), by decide, by decide⟩
theorem witness_EncfEncryptsTheFile :
    (keyed hello).fault = false ∧
    normalize (keyed hello).ktag (keyed hello).keyin = .ok (blk 0x6162636465666768696a6b6c6d6e6f70) ∧
    fileSize (keyed hello).ibuf.length < 2 ^ 64 ∧
    normalize State.reset.ktag State.reset.keyin = .error .invalidKeyLength ∧ faulted.fault = true := by decide
theorem witness_EncfEqualsTheStagedCommands :
    (keyed hello).fault = false ∧
    normalize (keyed hello).ktag (keyed hello).keyin = .ok (blk 0x6162636465666768696a6b6c6d6e6f70) ∧
    fileSize (keyed hello).ibuf.length < 2 ^ 64 := by decide
/-- The last ciphertext is ECBE of `pad("abc")` (95_test_vectors.md 2.8): it unpads and does not decode. -/
theorem witness_DecfDecryptsTheFile :
    (keyed cipherC).fault = false ∧ (keyed cipherC).ibuf.length < 2 ^ 64 ∧
    normalize (keyed cipherC).ktag (keyed cipherC).keyin = .ok (blk 0x6162636465666768696a6b6c6d6e6f70) ∧
    ecbDecrypt (keyed cipherC).ibuf (expand (blk 0x6162636465666768696a6b6c6d6e6f70)) =
      .ok (blk 0x5345564d5445383d0808080808080808).toList ∧
    unpad (blk 0x5345564d5445383d0808080808080808).toList = .ok (b64Enc hello) ∧ b64Dec (b64Enc hello) = .ok hello ∧
    normalize State.reset.ktag State.reset.keyin = .error .invalidKeyLength ∧ (keyed [0#8]).ibuf.length % 16 ≠ 0 ∧
    ecbDecrypt (keyed []).ibuf (expand (blk 0x6162636465666768696a6b6c6d6e6f70)) = .ok [] ∧
    unpad [] = .error .invalidPadding ∧
    ecbDecrypt (blk 0x4510850199081265d0de92d40e68ca22).toList (expand (blk 0x6162636465666768696a6b6c6d6e6f70)) =
      .ok (pad [0x61#8, 0x62#8, 0x63#8]) ∧
    unpad (pad [0x61#8, 0x62#8, 0x63#8]) = .ok [0x61#8, 0x62#8, 0x63#8] ∧
    b64Dec [0x61#8, 0x62#8, 0x63#8] = .error .invalidBase64 ∧ faulted.fault = true := by decide +kernel
/-- Its stages' witnesses are those of `witness_DecfDecryptsTheFile`; here the two DECF that fail. -/
theorem witness_DecfTellsNoSubStep :
    nextIs (exec .decf { keyed [] with ibuf := [] }) (fun t => t.fault) = true ∧
    nextIs (exec .decf { keyed [] with ibuf := (blk 0x4510850199081265d0de92d40e68ca22).toList }) (fun t => t.fault) = true ∧
    (keyed []).fault = false ∧ nextIs (exec .unpad State.reset) (fun t => t.fault) = true ∧
    unpad State.reset.ibuf = .error .invalidPadding ∧ b64Dec (withIbuf [0x5a#8]).ibuf = .error .invalidBase64 ∧
    nextIs (exec .b64d (withIbuf [0x5a#8])) (fun t => t.fault) = true := by decide +kernel
theorem witness_DecryptionReturnsTheEncryptedFile :
    State.reset.fault = false ∧ keyInputLegal tagStr keyText = true ∧
    normalize tagStr keyText = .ok (blk 0x6162636465666768696a6b6c6d6e6f70) ∧ fileSize hello.length < 2 ^ 64 := by decide
theorem witness_OtoiMovesTheOutput : State.reset.fault = false ∧ faulted.fault = true := by decide
theorem witness_FaultsArePrecise :
    (∃ t, exec .keyld State.reset = .next t ∧ t.fault = true) ∧ State.reset.fault = false ∧
      Instr.wellFormed .keyld = true ∧ Raises .keyld State.reset .invalidKeyLength ∧
      decode 0x0000#16 = .error .unknownOpcode :=
  ⟨nextIs_elim (p := fun t => t.fault) (by decide), rfl, rfl, rfl, by decide⟩
theorem witness_FaultStateIgnoresEveryCommandButRst :
    faulted.fault = true ∧ (0x017F#16 : CmdWord) ≠ 0x007F#16 ∧ hello.length < 2 ^ 64 ∧ keyText.length < 2 ^ 64 ∧
      keyInputLegal tagStr keyText = true ∧ 255 < 256 ∧ (Window.rk = .st ∨ Window.rk = .key ∨ Window.rk = .rk) ∧
      175 < (if Window.rk = .rk then 176 else 16) ∧ ReadTarget.reg 12 = .reg 12 ∧
      ReadTarget.elem .obuf 0 = .elem .obuf 0 := by decide
theorem witness_RaisableFaultsAreTheTable :
    Instr.wellFormed .decf = true ∧ (∃ t, exec .unpad State.reset = .next t ∧ decide (t.fault = true ∧ t.err = some .invalidPadding) = true) ∧
      decode 0xFFFF#16 = .error .highBitsNotZero ∧ (∃ t, moveIssue 0xFFFF#16 State.reset = .next t ∧ t.fault = true) :=
  ⟨rfl, nextIs_elim (by decide), by decide, nextIs_elim (p := fun t => t.fault) (by decide)⟩
theorem witness_StepKeepsTheInvariant :
    Inv faulted ∧ ∃ t, step (withScript [.issue 0x0031#16] faulted) = .next t ∧ Inv (withScript [.issue 0x0031#16] faulted) := by
  have h : ∀ ms, Inv (withScript ms faulted) := fun ms =>
    { fault_iff_err := by simp [withScript, faulted]
      fcmd_zero := by simp [withScript, faulted]
      fault_clears := by simp [withScript, faulted]
      err_of_fcmd := by
        intro e he
        cases Option.some.inj he
        have : FaultCause.invalidPadding ∈ wordMayRaise 0x0031#16 := by decide
        exact this
      memory := by
        exact (Memory.wf_congr (s := State.reset) (t := withScript ms faulted) rfl rfl rfl rfl).trans Memory.wf_reset }
  exact ⟨h [], _, rfl, h _⟩
theorem witness_StepKeepsTheSizeLaw :
    SizeLaw { State.reset with origSize := 5#64, encSize := 16#64 } ∧
      ∃ t, step { State.reset with origSize := 5#64, encSize := 16#64 } = .next t :=
  ⟨.inr (by decide), _, rfl⟩
theorem witness_DecodeOfEncodeIsTheCommand : Instr.wellFormed (.addrk 10#4) = true ∧ Instr.wellFormed .rst = true := by decide
theorem witness_DecodeSelectsTheTableRow :
    decode 0x0A13#16 = .ok (.addrk 10#4) ∧ Instr.wellFormed (.addrk 10#4) = true ∧
      0x0A13#16 &&& 0xF0FF#16 = 0x0013#16 ∧ encode (.addrk 10#4) = encode (.addrk 10#4) := by decide
theorem witness_IllegalWordsAreExactlyThese : decode 0x0000#16 = .error .unknownOpcode ∧ State.reset.fault = false := by decide
theorem witness_StepRunsTheIssuedCommand :
    decode 0x0A13#16 = .ok (.addrk 10#4) ∧
      (withScript [.issue 0x0A13#16, .hardReset] State.reset).host.script = .issue 0x0A13#16 :: [.hardReset] ∧
      (withScript [.writeReg 0 0x0A13] State.reset).host.script = .writeReg 0 (0x0A13#16 : CmdWord).toNat :: [] ∧
      (withScript [.hardReset] State.reset).host.script = .hardReset :: [] ∧ State.reset.host.script = [] ∧
      decode 0x0B13#16 = .error .roundIndexTooLarge ∧
      (withScript [.issue 0x0B13#16] faulted).host.script = .issue 0x0B13#16 :: [] ∧ faulted.fault = true := by decide
theorem witness_EveryCommandAnswers : Memory.wf (keyed hello) = true := by decide
theorem witness_OnlyListedCommandsWriteEachRegister :
    (∃ t, exec .otoi { State.reset with obuf := hello } = .next t ∧ decide (t.ibuf ≠ []) = true) ∧ Instr.otoi ≠ .rst :=
  ⟨nextIs_elim (by decide), by decide⟩
theorem witness_RegisterCommandsFrame :
    (∃ t, exec .subb State.reset = .next t ∧ (!t.fault) = true) ∧ (∃ t, exec .keyexp State.reset = .next t ∧ (!t.fault) = true) ∧
    (∃ t, exec .keyld (keyed []) = .next t ∧ (!t.fault) = true) ∧ (∃ t, exec .gfmul State.reset = .next t ∧ (!t.fault) = true) ∧
    (∃ t, exec (.addrk 10#4) State.reset = .next t ∧ (!t.fault) = true) ∧ State.reset.fault = false :=
  ⟨nextIs_elim (p := fun t => !t.fault) (by decide), nextIs_elim (p := fun t => !t.fault) (by decide),
    nextIs_elim (p := fun t => !t.fault) (by decide), nextIs_elim (p := fun t => !t.fault) (by decide),
    nextIs_elim (p := fun t => !t.fault) (by decide), rfl⟩
theorem witness_BufferCommandsFrame :
    (∃ t, exec .pad State.reset = .next t) ∧ unpad (withIbuf [0x01#8]).ibuf = .ok [] ∧
    (∃ t, exec .unpad (withIbuf [0x01#8]) = .next t) ∧ (∃ t, exec .b64e State.reset = .next t) ∧
    b64Dec State.reset.ibuf = .ok [] ∧ (∃ t, exec .b64d State.reset = .next t) ∧
    ecbEncrypt State.reset.ibuf State.reset.rk = .ok [] ∧ (∃ t, exec .ecbe State.reset = .next t) ∧
    (∃ r, encryptFile (keyed hello).ibuf (keyed hello).ktag (keyed hello).keyin = .ok r) ∧
    (∃ t, exec .encf (keyed hello) = .next t) ∧ State.reset.fault = false ∧
    ecbDecrypt State.reset.ibuf State.reset.rk = .ok [] ∧ (∃ t, exec .ecbd State.reset = .next t) ∧
    isOk (decryptFile (keyed cipherC).ibuf (keyed cipherC).ktag (keyed cipherC).keyin) = true ∧
    nextIs (exec .decf (keyed cipherC)) (fun t => !t.fault) = true :=
  ⟨⟨_, rfl⟩, by decide, ⟨_, rfl⟩, ⟨_, rfl⟩, by decide, ⟨_, rfl⟩, by decide, ⟨_, rfl⟩, isOk_elim (by decide), ⟨_, rfl⟩, rfl,
    by decide, ⟨_, rfl⟩, by decide +kernel, by decide +kernel⟩
theorem witness_LoadsReplaceTheirBufferOnly :
    hello.length < 2 ^ 64 ∧ (∀ u ∈ List.replicate 1 0xff#21, u.toNat < 256) ∧
    (∀ u ∈ List.replicate 1 0x10FFFF#21, u.toNat ≤ 0x10FFFF ∧ ¬ (0xD800 ≤ u.toNat ∧ u.toNat ≤ 0xDFFF)) ∧
    (∀ u ∈ List.replicate 1 0xD7FF#21, u.toNat ≤ 0x10FFFF ∧ ¬ (0xD800 ≤ u.toNat ∧ u.toNat ≤ 0xDFFF)) :=
  ⟨by decide, all_replicate (by decide), all_replicate (by decide), all_replicate (by decide)⟩
theorem witness_WriteDataStoresOneByte :
    255 < 256 ∧ (Window.st = .st ∨ Window.st = .key ∨ Window.st = .rk) ∧
      (Window.rk = .st ∨ Window.rk = .key ∨ Window.rk = .rk) ∧ 175 < (if Window.rk = .rk then 176 else 16) := by decide
theorem witness_MovesOutsideTheSpecChangeNothing :
    (13 ≠ 0 ∧ 13 ≠ 10 ∧ 13 ≠ 11) ∧ (Window.obuf = .keyin ∨ Window.obuf = .ibuf ∨ Window.obuf = .obuf) ∧
    (∃ u ∈ List.replicate 1 0x100#21, 256 ≤ u.toNat) ∧
    (∃ u ∈ List.replicate 1 0x110000#21, 0x10FFFF < u.toNat ∨ (0xD800 ≤ u.toNat ∧ u.toNat ≤ 0xDFFF)) ∧
    (∃ u ∈ List.replicate 1 0xDFFF#21, 0x10FFFF < u.toNat ∨ (0xD800 ≤ u.toNat ∧ u.toNat ≤ 0xDFFF)) ∧
    2 ^ 64 ≤ (List.replicate (2 ^ 64) 0#8).length ∧ 2 ^ 64 ≤ (List.replicate (2 ^ 64) 0#21).length ∧
    65536 ≤ 65536 ∧ (10 = 10 ∨ 10 = 11) ∧ 256 ≤ 256 :=
  ⟨by decide, by decide, ⟨0x100#21, by decide, by decide⟩, ⟨0x110000#21, by decide, by decide⟩,
    ⟨0xDFFF#21, by decide, by decide⟩, List.length_replicate.ge, List.length_replicate.ge, by decide, by decide,
    by decide⟩
theorem witness_ReadsChangeNothing :
    (withScript [.read (.elem .rk 175), .hardReset] State.reset).host.script = .read (.elem .rk 175) :: [.hardReset] := by
  decide

end Sys2Proof.Tests
end

section
/-! Commands in sequence (20_memory.md R50), and the state that RST and HardReset leave (R27, R51, R186). -/

namespace Sys2Proof.Machine

variable {s t : State}

@[simp] theorem execAll_nil (s : State) : execAll [] s = .next s := rfl

/-- A command that completes hands its state to the commands after it. -/
theorem execAll_cons_of_next {i : Instr} (h : exec i s = .next t) (is : List Instr) :
    execAll (i :: is) s = execAll is t := by
  rw [execAll, h]

@[simp] theorem execAll_singleton (i : Instr) (s : State) : execAll [i] s = exec i s := by
  cases h : exec i s with
  | next t => rw [execAll_cons_of_next h, execAll_nil]
  | fault r => rw [execAll, h]
  | refused r => rw [execAll, h]

/-- The command does not ask for `FAULT = 0` (R194). -/
@[simp] theorem exec_rst (s : State) : exec .rst s = .next (resetCore s) := rfl

@[simp] theorem hostMove_hardReset (s : State) : hostMove .hardReset s = .next (resetCore s) := rfl

/-- Reset reads nothing of the core: the host agent, which it keeps, is all that its result depends on. -/
theorem resetCore_congr (h : t.host = s.host) : resetCore t = resetCore s := by
  rw [resetCore, resetCore, h]

@[simp] theorem resetCore_resetCore (s : State) : resetCore (resetCore s) = resetCore s :=
  resetCore_congr (resetCore_host s)

/-- The table of R27, with the blocks and the round keys written out. -/
theorem resetCore_eq (s : State) : resetCore s = {
    gfa := 0x00#8, gfb := 0x00#8, gfp := 0x00#8
    st := Vector.replicate 16 0x00#8, key := Vector.replicate 16 0x00#8
    rk := Vector.replicate 11 (Vector.replicate 16 0x00#8)
    ktag := 0#2, keyin := [], ibuf := [], obuf := []
    fault := false, err := none, fcmd := 0x0000#16, origSize := 0#64, encSize := 0#64
    host := s.host } := rfl

/-- Settles O38: RST and HardReset both answer `resetCore s`, in every state; that state is R27's table, and resetting
it again changes nothing. -/
theorem rstResetsEveryPieceOfState : Obligations.RstResetsEveryPieceOfState := by
  unfold Obligations.RstResetsEveryPieceOfState
  refine ⟨rfl, fun s => ?_, fun s => ?_, fun s => ?_⟩
  · rw [exec_rst, resetCore_eq]
  · rw [hostMove_hardReset, exec_rst]
  · rw [execAll_cons_of_next (exec_rst s), execAll_singleton, exec_rst, exec_rst, resetCore_resetCore]

end Sys2Proof.Machine
end

section
/-! The host moves that write (20_memory.md R46 to R48): what each answers, and what a read returns after one byte of a
block or of the round-key file was written. -/

namespace Sys2Proof.Machine

variable {s t : State}

/-! ### Loads (R46, R47) -/

theorem isCodePoint_iff (u : Elem) :
    isCodePoint u = true ↔ u.toNat ≤ 0x10FFFF ∧ ¬ (0xD800 ≤ u.toNat ∧ u.toNat ≤ 0xDFFF) := by
  simp only [isCodePoint, Bool.and_eq_true, decide_eq_true_eq, Bool.not_eq_true', ← Bool.not_eq_true]

/-- R47, tag by tag; tags 2 and 3 ask nothing of the elements. -/
theorem keyInputLegal_iff (tag : BitVec 2) (es : List Elem) : keyInputLegal tag es = true ↔
    (tag = 0#2 → ∀ u ∈ es, u.toNat < 256) ∧
    (tag = 1#2 → ∀ u ∈ es, u.toNat ≤ 0x10FFFF ∧ ¬ (0xD800 ≤ u.toNat ∧ u.toNat ≤ 0xDFFF)) := by
  unfold keyInputLegal tagBin tagStr
  split
  next h => subst h; simp
  next h0 =>
    split
    next h1 => subst h1; simp [isCodePoint_iff]
    next h1 => simp [h0, h1]

theorem hostMove_loadIbuf {bs : List Byte} (h : bs.length < 2 ^ 64) (s : State) :
    hostMove (.loadIbuf bs) s = .next (s.setIbuf bs) :=
  if_pos ((fitsBuffer_iff _).2 h)

theorem hostMove_loadKey {tag : BitVec 2} {es : List Elem} (h : es.length < 2 ^ 64)
    (hl : keyInputLegal tag es = true) (s : State) :
    hostMove (.loadKey tag es) s = .next (s.setKeyInput tag es) :=
  (if_pos ((fitsKeyin_iff _).2 h)).trans (if_pos hl)

/-! ### One byte written (R48) -/

theorem hostMove_writeReg_gfa {v : Nat} (h : v < 256) (s : State) :
    hostMove (.writeReg 10 v) s = .next (s.setGfa (BitVec.ofNat 8 v)) := if_pos h

theorem hostMove_writeReg_gfb {v : Nat} (h : v < 256) (s : State) :
    hostMove (.writeReg 11 v) s = .next (s.setGfb (BitVec.ofNat 8 v)) := if_pos h

@[simp] theorem hostMove_writeData_st (i : Nat) (v : Byte) (s : State) :
    hostMove (.writeData .st i v) s = .next (s.setSt (setByte s.st i v)) := rfl

@[simp] theorem hostMove_writeData_key (i : Nat) (v : Byte) (s : State) :
    hostMove (.writeData .key i v) s = .next (s.setKey (setByte s.key i v)) := rfl

@[simp] theorem hostMove_writeData_rk (i : Nat) (v : Byte) (s : State) :
    hostMove (.writeData .rk i v) s = .next (s.setRk (setRkByte s.rk i v)) := rfl

/-! ### No register shows ST, KEY or RK (R24) -/

@[simp] theorem readReg_setSt (r : Reg) (s : State) (b : Block) : readReg r (s.setSt b) = readReg r s := by
  cases r <;> rfl

@[simp] theorem readReg_setKey (r : Reg) (s : State) (b : Block) : readReg r (s.setKey b) = readReg r s := by
  cases r <;> rfl

@[simp] theorem readReg_setRk (r : Reg) (s : State) (ks : RoundKeys) : readReg r (s.setRk ks) = readReg r s := by
  cases r <;> rfl

/-! ### The other windows after a write of one window -/

theorem readElem_setSt_of_ne {x : Window} (h : x ≠ .st) (a : Nat) (s : State) (b : Block) :
    readElem x a (s.setSt b) = readElem x a s := by
  cases x
  case st => exact absurd rfl h
  all_goals rfl

theorem readElem_setKey_of_ne {x : Window} (h : x ≠ .key) (a : Nat) (s : State) (b : Block) :
    readElem x a (s.setKey b) = readElem x a s := by
  cases x
  case key => exact absurd rfl h
  all_goals rfl

theorem readElem_setRk_of_ne {x : Window} (h : x ≠ .rk) (a : Nat) (s : State) (ks : RoundKeys) :
    readElem x a (s.setRk ks) = readElem x a s := by
  cases x
  case rk => exact absurd rfl h
  all_goals rfl

/-! ### The written window -/

/-- A block's element `a` as a window reads it, after byte `i` was stored. -/
theorem setByte_read (b : Block) (i a : Nat) (v : Byte) :
    (if h : a < 16 then (setByte b i v)[a].toNat else 0) =
      if a = i ∧ i < 16 then v.toNat else if h : a < 16 then b[a].toNat else 0 := by
  by_cases ha : a < 16
  · by_cases hai : a = i
    · subst hai; simp [ha, setByte_get]
    · simp [ha, setByte_get, hai]
  · have out : ¬ (a = i ∧ i < 16) := by omega
    simp only [dif_neg ha, if_neg out]

theorem readElem_st_setByte (i a : Nat) (v : Byte) (s : State) :
    readElem .st a (s.setSt (setByte s.st i v)) = if a = i ∧ i < 16 then v.toNat else readElem .st a s := by
  simp only [readElem_st, State.setSt_st, setByte_read]

theorem readElem_key_setByte (i a : Nat) (v : Byte) (s : State) :
    readElem .key a (s.setKey (setByte s.key i v)) = if a = i ∧ i < 16 then v.toNat else readElem .key a s := by
  simp only [readElem_key, State.setKey_key, setByte_read]

theorem readElem_rk_setRkByte (i a : Nat) (v : Byte) (s : State) :
    readElem .rk a (s.setRk (setRkByte s.rk i v)) = if a = i ∧ i < 176 then v.toNat else readElem .rk a s := by
  simp only [readElem_rk, State.setRk_rk]
  by_cases hr : a / 16 < 11
  · rw [dif_pos hr, dif_pos hr, setRkByte_get _ _ _ _ _ hr (Nat.mod_lt _ (by decide)), Nat.div_add_mod,
      apply_ite BitVec.toNat]
    have bound : a = i ↔ a = i ∧ i < 176 := by omega
    simp only [← bound]
  · have out : ¬ (a = i ∧ i < 176) := by omega
    simp only [dif_neg hr, if_neg out]

/-- R40: index `16*r + j` of the RK window is byte `j` of round key `r`. -/
theorem readElem_rk_index (r : Fin 11) (j : Fin 16) (s : State) :
    readElem .rk (16 * r.val + j.val) s = s.rk[r][j].toNat := by
  have hdiv : (16 * r.val + j.val) / 16 = r.val := by omega
  have hmod : (16 * r.val + j.val) % 16 = j.val := by omega
  simp [readElem_rk, hdiv, hmod]

/-- The written window and the others, put together: one element of all six windows differs. -/
theorem readElem_of_one_written {w : Window} {i n v : Nat}
    (hw : ∀ a, readElem w a t = if a = i ∧ i < n then v else readElem w a s)
    (hne : ∀ x, x ≠ w → ∀ a, readElem x a t = readElem x a s) (x : Window) (a : Nat) :
    readElem x a t = if x = w ∧ a = i ∧ i < n then v else readElem x a s := by
  by_cases h : x = w
  · subst h; simp [hw]
  · simp [h, hne x h]

/-! ### The obligations -/

/-- Settles O57: below 2^64 both loads fit, legality is R47's by `keyInputLegal_iff`, and each load is one write of the
state. -/
theorem loadsReplaceTheirBufferOnly : Obligations.LoadsReplaceTheirBufferOnly := by
  unfold Obligations.LoadsReplaceTheirBufferOnly
  exact ⟨fun s _ h => hostMove_loadIbuf h s,
    fun s tag es h hbin hstr => hostMove_loadKey h ((keyInputLegal_iff tag es).2 ⟨hbin, hstr⟩) s⟩

/-- Settles O58: each of the three windows reads back its one byte, and neither the other windows nor the registers
see the field that was written. -/
theorem writeDataStoresOneByte : Obligations.WriteDataStoresOneByte := by
  unfold Obligations.WriteDataStoresOneByte
  refine ⟨fun s v hv => ⟨hostMove_writeReg_gfa hv s, hostMove_writeReg_gfb hv s⟩, ?_,
    fun s r j => readElem_rk_index r j s⟩
  rintro s w i v (rfl | rfl | rfl)
  · exact ⟨_, hostMove_writeData_st i v s, readElem_of_one_written (fun a => readElem_st_setByte i a v s)
      fun _ hx a => readElem_setSt_of_ne hx a s _, fun r => readReg_setSt r s _, rfl, rfl⟩
  · exact ⟨_, hostMove_writeData_key i v s, readElem_of_one_written (fun a => readElem_key_setByte i a v s)
      fun _ hx a => readElem_setKey_of_ne hx a s _, fun r => readReg_setKey r s _, rfl, rfl⟩
  · exact ⟨_, hostMove_writeData_rk i v s, readElem_of_one_written (fun a => readElem_rk_setRkByte i a v s)
      fun _ hx a => readElem_setRk_of_ne hx a s _, fun r => readReg_setRk r s _, rfl, rfl⟩

end Sys2Proof.Machine
end

section
/-! The decoder and the encoder (30_encoding.md R60 to R64): a word is its three fields, and decoding inverts encoding on
the well-formed commands. -/

namespace Sys2Proof

variable {c d : CmdWord} {i : Instr}

/-! ### A word is its fields (R60) -/

@[simp] theorem opField_toNat (c : CmdWord) : (opField c).toNat = c.toNat % 256 := by
  simp [opField, BitVec.extractLsb'_toNat]

@[simp] theorem rndField_toNat (c : CmdWord) : (rndField c).toNat = c.toNat / 256 % 16 := by
  simp [rndField, BitVec.extractLsb'_toNat, Nat.shiftRight_eq_div_pow]

@[simp] theorem highField_toNat (c : CmdWord) : (highField c).toNat = c.toNat / 4096 := by
  have hc := c.isLt
  simp only [highField, BitVec.extractLsb'_toNat, Nat.shiftRight_eq_div_pow]
  omega

theorem word_eq_iff : c = d ↔ highField c = highField d ∧ rndField c = rndField d ∧ opField c = opField d := by
  simp only [← BitVec.toNat_inj, highField_toNat, rndField_toNat, opField_toNat]
  omega

theorem opField_and (c d : CmdWord) : opField (c &&& d) = opField c &&& opField d := BitVec.extractLsb'_and

theorem rndField_and (c d : CmdWord) : rndField (c &&& d) = rndField c &&& rndField d := BitVec.extractLsb'_and

theorem highField_and (c d : CmdWord) : highField (c &&& d) = highField c &&& highField d := BitVec.extractLsb'_and

/-- A word of format N is its opcode. -/
theorem setWidth_eq_word_iff {op : BitVec 8} :
    op.setWidth 16 = c ↔ highField c = 0#4 ∧ rndField c = 0#4 ∧ opField c = op := by
  have hop := op.isLt
  simp only [← BitVec.toNat_inj, highField_toNat, rndField_toNat, opField_toNat, BitVec.toNat_setWidth,
    BitVec.toNat_ofNat]
  omega

/-- A word of format R is the opcode of ADDRK and its operand. -/
theorem encode_addrk_eq_iff {rnd : BitVec 4} :
    encode (.addrk rnd) = c ↔ highField c = 0#4 ∧ rndField c = rnd ∧ opField c = addrkOp := by
  have fields : ∀ r : BitVec 4, highField (encode (.addrk r)) = 0#4 ∧ rndField (encode (.addrk r)) = r ∧
      opField (encode (.addrk r)) = addrkOp := by decide
  obtain ⟨hh, hr, ho⟩ := fields rnd
  rw [eq_comm, word_eq_iff, hh, hr, ho]

/-! ### Decoding inverts encoding (R62) -/

/-- The format-N table holds the Match value of each of its rows. -/
theorem encode_of_formatN {op : BitVec 8} (h : formatN op = some i) :
    i.wellFormed = true ∧ encode i = op.setWidth 16 := by
  unfold formatN at h
  split at h <;> cases h <;> exact ⟨rfl, rfl⟩

theorem decode_encode (h : i.wellFormed = true) : decode (encode i) = .ok i := by
  cases i with
  | addrk rnd => revert rnd; decide
  | _ => rfl

/-- A word that decodes has no high bits, and is a row of format R or of format N. -/
theorem fields_of_decode_ok (h : decode c = .ok i) : highField c = 0#4 ∧
    (opField c = addrkOp ∧ rndLegal (rndField c) = true ∧ i = .addrk (rndField c) ∨
      rndField c = 0#4 ∧ formatN (opField c) = some i) := by
  unfold decode at h
  split at h
  next => cases h
  next high =>
    refine ⟨not_not.1 high, ?_⟩
    split at h
    next op =>
      split at h
      next legal => cases h; exact .inl ⟨op, legal, rfl⟩
      next => cases h
    next =>
      split at h
      next => cases h
      next row =>
        split at h
        next rnd => cases h; exact .inr ⟨rnd, row⟩
        next => cases h

theorem decode_eq_ok_iff : decode c = .ok i ↔ i.wellFormed = true ∧ encode i = c := by
  constructor
  · intro h
    obtain ⟨high, ⟨op, legal, rfl⟩ | ⟨rnd, row⟩⟩ := fields_of_decode_ok h
    · exact ⟨legal, encode_addrk_eq_iff.2 ⟨high, rfl, op⟩⟩
    · obtain ⟨wf, enc⟩ := encode_of_formatN row
      exact ⟨wf, enc.trans (setWidth_eq_word_iff.2 ⟨high, rnd, rfl⟩)⟩
  · rintro ⟨wf, rfl⟩
    exact decode_encode wf

theorem encode_inj {j : Instr} (hi : i.wellFormed = true) (hj : j.wellFormed = true) (h : encode i = encode j) :
    i = j :=
  Except.ok.inj ((decode_encode hi).symm.trans ((congrArg decode h).trans (decode_encode hj)))

/-! ### The rows of the table (R62) -/

/-- The Mask of ADDRK's row passes the high bits and the opcode, and not the operand. -/
theorem and_addrkMask_eq_iff : c &&& 0xF0FF#16 = 0x0013#16 ↔ highField c = 0#4 ∧ opField c = addrkOp := by
  have high : highField (c &&& 0xF0FF#16) = highField c := (highField_and c _).trans BitVec.and_allOnes
  have rnd : rndField (c &&& 0xF0FF#16) = 0#4 := (rndField_and c _).trans BitVec.and_zero
  have op : opField (c &&& 0xF0FF#16) = opField c := (opField_and c _).trans BitVec.and_allOnes
  rw [word_eq_iff, high, rnd, op]
  exact and_congr_right' (and_iff_right rfl)

theorem encode_eq_iff_selects_addrk {rnd : BitVec 4} : encode (.addrk rnd) = c ↔
    c &&& 0xF0FF#16 = 0x0013#16 ∧ ∀ r, Instr.addrk rnd = .addrk r → r = rndField c := by
  rw [encode_addrk_eq_iff, and_addrkMask_eq_iff]
  constructor
  · rintro ⟨high, rfl, op⟩
    exact ⟨⟨high, op⟩, fun r hr => (Instr.addrk.inj hr).symm⟩
  · rintro ⟨⟨high, op⟩, operand⟩
    exact ⟨high, (operand rnd rfl).symm, op⟩

/-- The Mask of a format-N row passes every bit, and there is no operand. -/
theorem encode_eq_iff_selects_formatN (hi : ∀ r, i ≠ .addrk r) : encode i = c ↔
    c &&& 0xFFFF#16 = encode i ∧ ∀ r, i = .addrk r → r = rndField c := by
  have mask : c &&& 0xFFFF#16 = c := BitVec.and_allOnes
  rw [mask, eq_comm, iff_self_and]
  exact fun _ r hr => absurd hr (hi r)

/-! ### The legal words and the others (R64) -/

/-- Every command of the hardware, ADDRK once for each round key. -/
def legalCommands : List Instr :=
  [.gfmul, .subb, .shrow, .mixc, .isubb, .ishrow, .imixc, .keyexp, .keyld, .pad, .unpad, .encb, .decb, .ecbe, .ecbd,
    .b64e, .b64d, .encf, .decf, .otoi, .rst] ++ (List.range 11).map fun r => .addrk (BitVec.ofNat 4 r)

theorem mem_legalCommands_iff : i ∈ legalCommands ↔ i.wellFormed = true := by
  cases i with
  | addrk rnd => revert rnd; decide
  | _ => decide

theorem decode_ok_iff_mem_map_encode : (∃ i, decode c = .ok i) ↔ c ∈ legalCommands.map encode := by
  simp only [List.mem_map, mem_legalCommands_iff, decode_eq_ok_iff]

/-- The four ways a word is illegal, in its fields. -/
theorem decode_error_iff : (∃ x, decode c = .error x) ↔
    highField c ≠ 0#4 ∨ (opField c ≠ addrkOp ∧ formatN (opField c) = none) ∨
      (opField c ≠ addrkOp ∧ rndField c ≠ 0#4) ∨ (opField c = addrkOp ∧ rndLegal (rndField c) = false) := by
  unfold decode
  by_cases high : highField c = 0#4
  · by_cases op : opField c = addrkOp
    · cases rndLegal (rndField c) <;> simp [high, op]
    · cases formatN (opField c) with
      | none => simp [high, op]
      | some i => by_cases rnd : rndField c = 0#4 <;> simp [high, op, rnd]
  · simp [high]

/-- The 22 opcodes, as numbers. -/
theorem unknownOpcode_iff (op : BitVec 8) : op ≠ addrkOp ∧ formatN op = none ↔
    op.toNat ∉ [0x01, 0x10, 0x11, 0x12, 0x13, 0x14, 0x15, 0x16, 0x20, 0x21, 0x30, 0x31, 0x40, 0x41, 0x42, 0x43,
      0x50, 0x51, 0x60, 0x61, 0x70, 0x7F] := by
  revert op
  decide

end Sys2Proof
end

section
/-! Issue (20_memory.md R50, 30_encoding.md R63): a word that selects a row runs its command, any other raises. -/

namespace Sys2Proof.Machine

variable {c : CmdWord} {i : Instr} {x : DecodeError}

theorem moveIssue_of_ok (h : decode c = .ok i) (s : State) : moveIssue c s = exec i s := by
  rw [moveIssue, h]

theorem moveIssue_of_error (h : decode c = .error x) (s : State) :
    moveIssue c s = ifReady s (.next (enterFault .illegalCommand c s)) := by
  rw [moveIssue, h]

theorem moveIssue_of_fault {s : State} (hc : c ≠ 0x007F#16) (hf : s.fault = true) : moveIssue c s = .next s := by
  cases h : decode c with
  | error x => rw [moveIssue_of_error h, ifReady_of_fault hf]
  | ok i =>
    have hi : i ≠ .rst := by
      rintro rfl
      exact hc (decode_eq_ok_iff.1 h).2.symm
    rw [moveIssue_of_ok h, exec_of_fault hi hf]

/-- Settles O48: a word decodes to `i` exactly when it is the encoding of `i`, well formed; the masked comparison is that
equation, for ADDRK field by field. -/
theorem decodeSelectsTheTableRow : Obligations.DecodeSelectsTheTableRow := by
  unfold Obligations.DecodeSelectsTheTableRow
  refine ⟨fun c i => ?_, rfl, fun c i h => (decode_eq_ok_iff.1 h).2, fun i j hi hj => encode_inj hi hj⟩
  rw [decode_eq_ok_iff]
  refine and_congr_right fun _ => ?_
  cases i with
  | addrk rnd => exact encode_eq_iff_selects_addrk
  | _ => exact encode_eq_iff_selects_formatN nofun

/-- Settles O49: the four ways of `decode_error_iff` are the rule's, read as numbers; the legal words are the encodings of
`legalCommands`. -/
theorem illegalWordsAreExactlyThese : Obligations.IllegalWordsAreExactlyThese := by
  unfold Obligations.IllegalWordsAreExactlyThese
  refine ⟨fun c => ?_, ⟨_, rfl⟩, ⟨legalCommands.map encode, by decide, rfl, fun c => decode_ok_iff_mem_map_encode⟩,
    fun c x s hx hf => ?_⟩
  · have tooLarge : rndLegal (rndField c) = false ↔ 10 < c.toNat / 256 % 16 := by simp [rndLegal]
    rw [decode_error_iff, unknownOpcode_iff, tooLarge]
    simp only [ne_eq, addrkOp, ← BitVec.toNat_inj, highField_toNat, rndField_toNat, opField_toNat, BitVec.toNat_ofNat,
      Nat.reducePow, Nat.reduceMod, Nat.zero_mod]
  · rw [moveIssue_of_error hx, ifReady_of_ready hf]

/-- Settles O52: RST resets in every state; any other word is ignored in the fault state, and otherwise the decoder alone
decides. -/
theorem issueFollowsTheDecodeOrder : Obligations.IssueFollowsTheDecodeOrder := by
  unfold Obligations.IssueFollowsTheDecodeOrder
  intro c s
  split
  next hc => subst hc; exact exec_rst s
  next hc =>
    split
    next hf => exact moveIssue_of_fault hc hf
    next hf =>
      split
      next h => rw [moveIssue_of_error h, ifReady_of_ready (eq_false_of_ne_true hf)]
      next h => exact moveIssue_of_ok h s

end Sys2Proof.Machine
end

section
/-! Arithmetic in GF(2^8) (40_gf_arithmetic.md R80 to R82): the product of polynomials over GF(2) is linear in each
operand, as `gmul` is, and so is taking the remainder modulo 0x11b. What is to be shown of all pairs of bytes is then
shown of the powers of x. -/

namespace Sys2Proof.Machine

variable {s : State}

/-! ### A byte is the sum of its powers of x -/

/-- The sum of the powers of x with these exponents. -/
def sumOfPowers (is : List (Fin 8)) : Byte := is.foldr (fun i p => 1#8 <<< i.val ^^^ p) 0#8

theorem eq_sumOfPowers (a : Byte) : a = sumOfPowers ((List.finRange 8).filter fun i => a.getLsbD i.val) := by
  revert a
  decide +kernel

/-- What holds of 0 and of the powers of x, and of every sum of bytes it holds of, holds of every byte. -/
theorem byte_induction {P : Byte → Prop} (zero : P 0#8) (power : ∀ i : Fin 8, P (1#8 <<< i.val))
    (add : ∀ a b, P a → P b → P (a ^^^ b)) (a : Byte) : P a := by
  rw [eq_sumOfPowers a]
  generalize (List.finRange 8).filter _ = is
  induction is with
  | nil => exact zero
  | cons i is ih => exact add _ _ (power i) ih

/-! ### The product of polynomials is linear in each operand -/

/-- What coefficient `i` of `b` adds to the product. -/
def polyTerm (a b : BitVec 16) (i : Nat) : BitVec 16 := if b.getLsbD i then a <<< i else 0#16

theorem polyTerm_xor_left (a a' b : BitVec 16) (i : Nat) :
    polyTerm (a ^^^ a') b i = polyTerm a b i ^^^ polyTerm a' b i := by
  unfold polyTerm
  cases b.getLsbD i
  · simp
  · exact BitVec.shiftLeft_xor_distrib a a' i

theorem polyTerm_xor_right (a b b' : BitVec 16) (i : Nat) :
    polyTerm a (b ^^^ b') i = polyTerm a b i ^^^ polyTerm a b' i := by
  unfold polyTerm
  rw [BitVec.getLsbD_xor]
  cases b.getLsbD i <;> cases b'.getLsbD i <;> simp

/-- A sum whose terms are sums splits in two. -/
theorem foldl_xor_split {f g h : Nat → BitVec 16} (hf : ∀ i, f i = g i ^^^ h i) (is : List Nat) (p q : BitVec 16) :
    is.foldl (fun x i => x ^^^ f i) (p ^^^ q) =
      is.foldl (fun x i => x ^^^ g i) p ^^^ is.foldl (fun x i => x ^^^ h i) q := by
  induction is generalizing p q with
  | nil => rfl
  | cons i is ih =>
    have regroup : p ^^^ q ^^^ (g i ^^^ h i) = (p ^^^ g i) ^^^ (q ^^^ h i) := by ac_rfl
    rw [List.foldl_cons, List.foldl_cons, List.foldl_cons, hf i, regroup]
    exact ih _ _

theorem polyMul_eq_sum (a b : BitVec 16) :
    polyMul a b = (List.range 16).foldl (fun p i => p ^^^ polyTerm a b i) 0#16 := by
  have turn : ∀ p i, (if b.getLsbD i then p ^^^ a <<< i else p) = p ^^^ polyTerm a b i := by
    intro p i
    unfold polyTerm
    cases b.getLsbD i <;> simp
  simp only [polyMul, turn]

theorem polyMul_xor_left (a a' b : BitVec 16) : polyMul (a ^^^ a') b = polyMul a b ^^^ polyMul a' b := by
  simp only [polyMul_eq_sum]
  exact foldl_xor_split (polyTerm_xor_left a a' b) (List.range 16) 0#16 0#16

theorem polyMul_xor_right (a b b' : BitVec 16) : polyMul a (b ^^^ b') = polyMul a b ^^^ polyMul a b' := by
  simp only [polyMul_eq_sum]
  exact foldl_xor_split (polyTerm_xor_right a b b') (List.range 16) 0#16 0#16

@[simp] theorem polyMul_zero_left (b : BitVec 16) : polyMul 0#16 b = 0#16 := by
  simpa using polyMul_xor_left 0#16 0#16 b

@[simp] theorem polyMul_zero_right (a : BitVec 16) : polyMul a 0#16 = 0#16 := by
  simpa using polyMul_xor_right a 0#16 0#16

/-! ### The remainder modulo 0x11b -/

/-- The byte `r` is the remainder of `p` modulo 0x11b: they differ by a multiple of it (R81). -/
def HasRemainder (p : BitVec 16) (r : Byte) : Prop :=
  ∃ q : Byte, p = polyMul 0x11b#16 (q.setWidth 16) ^^^ r.setWidth 16

theorem hasRemainder_zero : HasRemainder 0#16 0#8 := ⟨0#8, by decide⟩

theorem HasRemainder.xor {p p' : BitVec 16} {r r' : Byte} (h : HasRemainder p r) (h' : HasRemainder p' r') :
    HasRemainder (p ^^^ p') (r ^^^ r') := by
  obtain ⟨q, rfl⟩ := h
  obtain ⟨q', rfl⟩ := h'
  refine ⟨q ^^^ q', ?_⟩
  rw [BitVec.setWidth_xor, BitVec.setWidth_xor, polyMul_xor_right]
  ac_rfl

theorem hasRemainder_polyMul_powers : ∀ i j : Fin 8,
    HasRemainder (polyMul ((1#8 <<< i.val).setWidth 16) ((1#8 <<< j.val).setWidth 16))
      (gmul (1#8 <<< i.val) (1#8 <<< j.val)) := by
  unfold HasRemainder
  decide +kernel

/-! ### `gmul` and `xtime` -/

@[simp] theorem gmul_zero_left (b : Byte) : gmul 0x00#8 b = 0x00#8 := by
  simpa using gmul_xor_left 0#8 0#8 b

@[simp] theorem gmul_zero_right (a : Byte) : gmul a 0x00#8 = 0x00#8 := by
  simpa using gmul_xor_right a 0#8 0#8

/-- R81, by linearity in `a` and then in `b`. -/
theorem hasRemainder_gmul (a b : Byte) : HasRemainder (polyMul (a.setWidth 16) (b.setWidth 16)) (gmul a b) := by
  induction a using byte_induction with
  | zero => simpa using hasRemainder_zero
  | add a a' ha ha' =>
    rw [BitVec.setWidth_xor, polyMul_xor_left, gmul_xor_left]
    exact ha.xor ha'
  | power i =>
    induction b using byte_induction with
    | zero => simpa using hasRemainder_zero
    | power j => exact hasRemainder_polyMul_powers i j
    | add b b' hb hb' =>
      rw [BitVec.setWidth_xor, polyMul_xor_right, gmul_xor_right]
      exact hb.xor hb'

theorem gmul_two (a : Byte) : gmul a 0x02#8 = xtime a :=
  linear_ext (f := fun a => gmul a 0x02#8) (fun a a' => gmul_xor_left a a' 0x02#8) xtime_xor (by decide) a

/-- R80 in numbers: the doubled byte without its carry, which adds 0x1b. -/
theorem xtime_toNat (a : Byte) :
    (xtime a).toNat = if a.toNat < 128 then 2 * a.toNat else (2 * a.toNat - 256) ^^^ 0x1b := by
  have ha := a.isLt
  have carry : a.getLsbD 7 = decide (128 ≤ a.toNat) := BitVec.msb_eq_decide a
  have double : (a <<< 1).toNat = 2 * a.toNat % 256 := by rw [BitVec.toNat_shiftLeft, Nat.shiftLeft_eq, mul_comm]
  rw [xtime, BitVec.toNat_xor, double, carry]
  by_cases h : a.toNat < 128
  · have low : 2 * a.toNat % 256 = 2 * a.toNat := by omega
    simp [h, low, Nat.not_le.2 h]
  · have high : 2 * a.toNat % 256 = 2 * a.toNat - 256 := by omega
    simp [h, high, Nat.not_lt.1 h]

/-- Settles O1: product and `gmul` are linear in each operand, so the remainder is checked on the powers of x. -/
theorem gmulIsThePolynomialProduct : Obligations.GmulIsThePolynomialProduct := by
  unfold Obligations.GmulIsThePolynomialProduct
  exact ⟨hasRemainder_gmul, fun a => ⟨gmul_two a, xtime_toNat a⟩, by decide⟩

/-! ### GFMUL (R82) -/

theorem exec_gfmul_of_ready (h : s.fault = false) : exec .gfmul s = .next (s.setGfp (gmul s.gfa s.gfb)) :=
  ifReady_of_ready h _

/-- Settles O5: GFMUL is one write of GFP, which neither operand and not FAULT sees; so a second GFMUL writes the same
value. -/
theorem gfmulWritesTheProduct : Obligations.GfmulWritesTheProduct := by
  unfold Obligations.GfmulWritesTheProduct
  refine ⟨rfl, fun s h => exec_gfmul_of_ready h, fun s h => exec_of_fault nofun h, fun s h => ?_,
    fun a => ⟨gmul_zero_right a, gmul_zero_left a⟩, by decide⟩
  have once := exec_gfmul_of_ready h
  rw [execAll_cons_of_next once, execAll_singleton, once]
  exact exec_gfmul_of_ready h

end Sys2Proof.Machine
end

section
/-! The field laws that make inverses unique (40_gf_arithmetic.md R83), and SBOX as the affine map of the inverse
(41_block_primitives.md R91). -/

namespace Sys2Proof.Machine

/-! ### `gmul` is commutative and associative, and 1 is its unit (R83) -/

theorem gmul_powers_comm : ∀ i j : Fin 8,
    gmul (1#8 <<< i.val) (1#8 <<< j.val) = gmul (1#8 <<< j.val) (1#8 <<< i.val) := by decide +kernel

theorem gmul_comm (a b : Byte) : gmul a b = gmul b a := by
  refine linear_ext (f := (gmul · b)) (gmul_xor_left · · b) (gmul_xor_right b) (fun i => ?_) a
  exact linear_ext (g := (gmul · _)) (gmul_xor_right _) (gmul_xor_left · · _) (gmul_powers_comm i) b

theorem gmul_powers_assoc : ∀ i j k : Fin 8,
    gmul (gmul (1#8 <<< i.val) (1#8 <<< j.val)) (1#8 <<< k.val) =
      gmul (1#8 <<< i.val) (gmul (1#8 <<< j.val) (1#8 <<< k.val)) := by decide +kernel

/-- Both sides are linear in each of the three operands. -/
theorem gmul_assoc (a b c : Byte) : gmul (gmul a b) c = gmul a (gmul b c) := by
  refine linear_ext (f := fun a => gmul (gmul a b) c) (g := fun a => gmul a (gmul b c))
    (fun _ _ => by simp only [gmul_xor_left]) (fun _ _ => by simp only [gmul_xor_left]) (fun i => ?_) a
  refine linear_ext (f := fun b => gmul (gmul _ b) c) (g := fun b => gmul _ (gmul b c))
    (fun _ _ => by simp only [gmul_xor_left, gmul_xor_right])
    (fun _ _ => by simp only [gmul_xor_left, gmul_xor_right]) (fun j => ?_) b
  exact linear_ext (f := fun c => gmul (gmul _ _) c) (g := fun c => gmul _ (gmul _ c))
    (fun _ _ => by simp only [gmul_xor_right]) (fun _ _ => by simp only [gmul_xor_right]) (gmul_powers_assoc i j) c

@[simp] theorem gmul_one_left (a : Byte) : gmul 0x01#8 a = a :=
  linear_ext (g := id) (gmul_xor_right 0x01#8) (fun _ _ => rfl) (by decide) a

@[simp] theorem gmul_one_right (a : Byte) : gmul a 0x01#8 = a := (gmul_comm a _).trans (gmul_one_left a)

theorem gmul_two_left (a : Byte) : gmul 0x02#8 a = xtime a := (gmul_comm _ a).trans (gmul_two a)

theorem gmul_three_left (a : Byte) : gmul 0x03#8 a = xtime a ^^^ a := by
  have split : (0x03#8 : Byte) = 0x02#8 ^^^ 0x01#8 := rfl
  rw [split, gmul_xor_left, gmul_two_left, gmul_one_left]

/-- The inverse is unique. -/
theorem eq_of_gmul_eq_one {a b c : Byte} (hc : gmul c a = 0x01#8) (hb : gmul a b = 0x01#8) : b = c :=
  calc b = gmul (gmul c a) b := by rw [hc, gmul_one_left]
    _ = gmul c (gmul a b) := gmul_assoc c a b
    _ = c := by rw [hb, gmul_one_right]

/-! ### SBOX (R91) -/

/-- The affine map of R91. -/
def sboxAffine (b : Byte) : Byte :=
  b ^^^ b.rotateLeft 1 ^^^ b.rotateLeft 2 ^^^ b.rotateLeft 3 ^^^ b.rotateLeft 4 ^^^ 0x63#8

/-- The map that undoes `sboxAffine`. -/
def sboxAffineInverse (y : Byte) : Byte := y.rotateLeft 1 ^^^ y.rotateLeft 3 ^^^ y.rotateLeft 6 ^^^ 0x05#8

theorem sboxAffine_sboxAffineInverse : ∀ y : Byte, sboxAffine (sboxAffineInverse y) = y := by decide +kernel

/-- What the affine map was applied to is the inverse of `a`. -/
theorem gmul_sboxAffineInverse_sbox : ∀ a : Byte, a ≠ 0x00#8 → gmul (sboxAffineInverse (sbox a)) a = 0x01#8 := by
  decide +kernel

theorem sboxAffineInverse_sbox_zero : sboxAffineInverse (sbox 0x00#8) = 0x00#8 := by decide

theorem eq_sboxAffineInverse_sbox {a b : Byte} (h : gmul a b = 0x01#8) : b = sboxAffineInverse (sbox a) := by
  have nonzero : a ≠ 0x00#8 := by
    rintro rfl
    rw [gmul_zero_left] at h
    exact absurd h (by decide)
  exact eq_of_gmul_eq_one (gmul_sboxAffineInverse_sbox a nonzero) h

theorem invSbox_sbox : ∀ a : Byte, invSbox (sbox a) = a := by decide +kernel

theorem sbox_invSbox : ∀ a : Byte, sbox (invSbox a) = a := by decide +kernel

theorem sbox_injective : Function.Injective sbox := Function.LeftInverse.injective invSbox_sbox

theorem sbox_surjective : Function.Surjective sbox := Function.RightInverse.surjective sbox_invSbox

theorem sbox_ne_self : ∀ a : Byte, sbox a ≠ a := by decide +kernel

/-- Settles O3: undoing the affine map on `sbox a` gives an inverse of `a`, which is the `b` of the statement because
the inverse is unique; INV_SBOX inverts SBOX on both sides, so SBOX is a permutation. -/
theorem sboxIsTheAffineMapOfTheInverse : Obligations.SboxIsTheAffineMapOfTheInverse := by
  unfold Obligations.SboxIsTheAffineMapOfTheInverse
  refine ⟨fun a b h => ?_, fun _ _ h => sbox_injective h, sbox_surjective, sbox_ne_self⟩
  have inverse : b = sboxAffineInverse (sbox a) := by
    rcases h with h | ⟨rfl, rfl⟩
    · exact eq_sboxAffineInverse_sbox h
    · exact sboxAffineInverse_sbox_zero.symm
  rw [inverse]
  exact (sboxAffine_sboxAffineInverse (sbox a)).symm

end Sys2Proof.Machine
end

section
/-! SUBB, SHROW, MIXC and ADDRK (41_block_primitives.md R93 to R97): when FAULT = 0 each is one write of ST, and what it
writes is described here byte by byte. -/

namespace Sys2Proof.Machine

variable {s : State}

/-! ### What each command answers when FAULT = 0 -/

theorem exec_subb_of_ready (h : s.fault = false) : exec .subb s = .next (s.setSt (subBytes s.st)) :=
  ifReady_of_ready h _

theorem exec_shrow_of_ready (h : s.fault = false) : exec .shrow s = .next (s.setSt (shiftRows s.st)) :=
  ifReady_of_ready h _

theorem exec_mixc_of_ready (h : s.fault = false) : exec .mixc s = .next (s.setSt (mixColumns s.st)) :=
  ifReady_of_ready h _

theorem roundIndex_ofNat (r : Fin 11) : roundIndex (BitVec.ofNat 4 r.val) = some r := by
  revert r
  decide

theorem exec_addrk_of_ready (h : s.fault = false) (r : Fin 11) :
    exec (.addrk (BitVec.ofNat 4 r.val)) s = .next (s.setSt (xor16 s.st (roundKey r s.rk))) := by
  refine (ifReady_of_ready h _).trans ?_
  rw [roundIndex_ofNat]

@[simp] theorem State.setSt_setSt (b b' : Block) : (s.setSt b).setSt b' = s.setSt b' := rfl

@[simp] theorem State.setSt_st_self : s.setSt s.st = s := rfl

/-- A block given by its bytes is their list, which is how the rules print one. -/
theorem block_ofFn_eq (f : Fin 16 → Byte) : Vector.ofFn f =
    #v[f 0, f 1, f 2, f 3, f 4, f 5, f 6, f 7, f 8, f 9, f 10, f 11, f 12, f 13, f 14, f 15] := by
  ext1 i hi
  rw [Vector.getElem_ofFn]
  interval_cases i <;> rfl

/-! ### SUBB (R93) -/

theorem subBytes_eq (b : Block) : subBytes b =
    #v[sbox b[0], sbox b[1], sbox b[2], sbox b[3], sbox b[4], sbox b[5], sbox b[6], sbox b[7], sbox b[8], sbox b[9],
      sbox b[10], sbox b[11], sbox b[12], sbox b[13], sbox b[14], sbox b[15]] := block_ofFn_eq _

/-- Settles O6: SUBB is one write of ST, of the sixteen bytes that `subBytes_eq` lists. -/
theorem subbSubstitutesEveryByte : Obligations.SubbSubstitutesEveryByte := by
  unfold Obligations.SubbSubstitutesEveryByte
  refine ⟨rfl, fun s h => ?_, fun s h => exec_of_fault nofun h, by decide, by decide⟩
  rw [exec_subb_of_ready h, subBytes_eq]
  rfl

/-! ### SHROW (R94) -/

/-- R90: a block is its bytes at row `r`, column `c`. -/
theorem block_ext_rows_columns {a b : Block} (h : ∀ r c : Fin 4, a[r.val + 4 * c.val] = b[r.val + 4 * c.val]) :
    a = b := by
  ext1 i hi
  have split : i % 4 + 4 * (i / 4) = i := Nat.mod_add_div i 4
  simpa only [split] using h ⟨i % 4, Nat.mod_lt i (by decide)⟩ ⟨i / 4, by omega⟩

/-- R94, with the column `c + r` added modulo 4. -/
theorem shiftRows_get (b : Block) (r c : Fin 4) :
    (shiftRows b)[r.val + 4 * c.val] = b[r.val + 4 * (c + r).val] := by
  have row : (r.val + 4 * c.val) % 4 = r.val := by omega
  have column : (r.val + 4 * c.val) / 4 = c.val := by omega
  simp only [shiftRows, Vector.getElem_ofFn, row, column, Fin.val_add]

theorem shiftRows_four (b : Block) : shiftRows (shiftRows (shiftRows (shiftRows b))) = b := by
  refine block_ext_rows_columns fun r c => ?_
  have around : c + r + r + r + r = c := by omega
  simp only [shiftRows_get, around]

theorem shiftRows_eq (b : Block) : shiftRows b =
    #v[b[0], b[5], b[10], b[15], b[4], b[9], b[14], b[3], b[8], b[13], b[2], b[7], b[12], b[1], b[6], b[11]] :=
  block_ofFn_eq _

theorem execAll_shrow_cons (h : s.fault = false) (is : List Instr) :
    execAll (.shrow :: is) s = execAll is (s.setSt (shiftRows s.st)) :=
  execAll_cons_of_next (exec_shrow_of_ready h) is

/-- Settles O7: byte (r, c) of `shiftRows` is the old byte (r, c + r), the column taken modulo 4; four times `r` columns
are whole turns of row `r`. -/
theorem shrowRotatesTheRows : Obligations.ShrowRotatesTheRows := by
  unfold Obligations.ShrowRotatesTheRows
  refine ⟨rfl, fun s h => ?_, fun s h => exec_of_fault nofun h, fun b r c => ?_, fun s h => ?_⟩
  · rw [exec_shrow_of_ready h, shiftRows_eq]
    rfl
  · simp only [shiftRows_get, Fin.val_add]
  · simp [execAll_shrow_cons, exec_shrow_of_ready, h, shiftRows_four]

/-! ### MIXC (R95, R96) -/

/-- R95: the product of column `c` with row `r` of the matrix. -/
theorem mixWith_get (m : List (List Byte)) (s : Block) (c r : Fin 4) :
    (mixWith m s)[4 * c.val + r.val] =
      gmul (coef m r.val 0) s[4 * c.val] ^^^ gmul (coef m r.val 1) s[4 * c.val + 1] ^^^
        gmul (coef m r.val 2) s[4 * c.val + 2] ^^^ gmul (coef m r.val 3) s[4 * c.val + 3] := by
  have row : (4 * c.val + r.val) % 4 = r.val := by omega
  have column : (4 * c.val + r.val) / 4 = c.val := by omega
  simp only [mixWith, Vector.getElem_ofFn, row, column, Nat.add_comm _ (4 * c.val), Nat.add_zero]

theorem mixWith_xor (m : List (List Byte)) (s t : Block) :
    mixWith m (xor16 s t) = xor16 (mixWith m s) (mixWith m t) := by
  ext1 i hi
  simp only [mixWith, Vector.getElem_ofFn, xor16_get, gmul_xor_right]
  ac_rfl

theorem mixMatrix_row_sum : ∀ r : Fin 4, coef mixMatrix r.val 0 ^^^ coef mixMatrix r.val 1 ^^^
    coef mixMatrix r.val 2 ^^^ coef mixMatrix r.val 3 = 0x01#8 := by decide

/-- The four products of one byte with a row of MIX are its product with the sum of the row, which is 1. -/
theorem mixColumns_get_of_equal {s : Block} {c : Fin 4} (h1 : s[4 * c.val + 1] = s[4 * c.val])
    (h2 : s[4 * c.val + 2] = s[4 * c.val]) (h3 : s[4 * c.val + 3] = s[4 * c.val]) (r : Fin 4) :
    (mixColumns s)[4 * c.val + r.val] = s[4 * c.val] := by
  rw [mixColumns, mixWith_get, h1, h2, h3, ← gmul_xor_left, ← gmul_xor_left, ← gmul_xor_left, mixMatrix_row_sum,
    gmul_one_left]

/-- Settles O8: the four rows of MIX, with the products by 2 and 3 as R95 writes them; `mixWith` is linear for every
matrix, and equal bytes are multiplied by the sum of a row. -/
theorem mixcMultipliesTheColumns : Obligations.MixcMultipliesTheColumns := by
  unfold Obligations.MixcMultipliesTheColumns
  refine ⟨rfl, fun s h => ⟨mixColumns s.st, exec_mixc_of_ready h, ?_⟩, fun s h => exec_of_fault nofun h,
    mixWith_xor mixMatrix, fun s c h1 h2 h3 => ?_⟩
  · rintro c _ _ _ _ rfl rfl rfl rfl
    have column := mixWith_get mixMatrix s.st c
    refine ⟨(column 0).trans ?_, (column 1).trans ?_, (column 2).trans ?_, (column 3).trans ?_⟩ <;>
      simp [coef, mixMatrix, gmul_two_left, gmul_three_left]
  · have equal := mixColumns_get_of_equal h1 h2 h3
    exact ⟨equal 0, equal 1, equal 2, equal 3⟩

/-! ### ADDRK (R97) -/

theorem roundKey_zeroRoundKeys (r : Fin 11) : roundKey r zeroRoundKeys = zeroBlock := by
  simp [roundKey, zeroRoundKeys]

theorem xor16_zeroBlock (b : Block) : xor16 b zeroBlock = b := by
  ext1 i h
  simp

theorem encode_addrk_ofNat : ∀ r : Nat, r ≤ 10 →
    encode (.addrk (BitVec.ofNat 4 r)) = BitVec.ofNat 16 (0x0013 + r * 256) := by
  decide

theorem decode_addrkWord_of_large {r : Nat} (h : 11 ≤ r) (h' : r ≤ 15) :
    decode (BitVec.ofNat 16 (0x0013 + r * 256)) = .error .roundIndexTooLarge := by
  interval_cases r <;> rfl

/-- Settles O9: ADDRK is one write of ST that RK does not see, and xor with the same key twice cancels; a word with an
index above 10 does not decode. -/
theorem addrkXorsTheRoundKey : Obligations.AddrkXorsTheRoundKey := by
  unfold Obligations.AddrkXorsTheRoundKey
  refine ⟨fun s r h => exec_addrk_of_ready h r, fun s rnd h => exec_of_fault nofun h, fun s r h => ?_,
    fun s r h hk => ?_, encode_addrk_ofNat, fun s r h h' hs => ?_⟩
  · have ready : (s.setSt (xor16 s.st (roundKey r s.rk))).fault = false := by rw [State.setSt_fault, h]
    rw [execAll_cons_of_next (exec_addrk_of_ready h r), execAll_singleton, exec_addrk_of_ready ready, State.setSt_setSt,
      State.setSt_st, State.setSt_rk, xor16_self_cancel, State.setSt_st_self]
  · rw [exec_addrk_of_ready h, hk, roundKey_zeroRoundKeys, xor16_zeroBlock, State.setSt_st_self]
  · rw [moveIssue_of_error (decode_addrkWord_of_large h h'), ifReady_of_ready hs]

end Sys2Proof.Machine
end

section
/-! The key schedule (42_key_schedule.md R111 to R114): the loop never changes a word that it has written, so every word
keeps the bytes of the key or the value of the recurrence; RK groups the words by four. -/

namespace Sys2Proof.Machine

variable {s : State} {ws : List KeyWord} {i : Nat}

/-! ### The loop of R113, step 2 -/

/-- The loop only appends: the words so far stay as they are. -/
theorem extendWords_getD_of_lt (h : i < ws.length) (n : Nat) :
    (extendWords n ws).getD i zeroWord = ws.getD i zeroWord := by
  induction n generalizing ws with
  | zero => rfl
  | succ n ih =>
    have longer : i < (ws ++ [nextWord ws]).length := by
      rw [List.length_append]
      omega
    exact (ih longer).trans (List.getD_append _ _ _ _ h)

/-- The word that a turn appends. -/
theorem extendWords_getD_length (n : Nat) (ws : List KeyWord) :
    (extendWords (n + 1) ws).getD ws.length zeroWord = nextWord ws := by
  have appended : ws.length < (ws ++ [nextWord ws]).length := by simp
  exact (extendWords_getD_of_lt appended n).trans (by simp)

/-- The recurrence of step 2, with `w[i-4]` and `w[i-1]` read from the finished list: both were there before the turn
that appends `w[i]`. -/
theorem extendWords_getD_recurrence (n : Nat) (hws : 4 ≤ ws.length) (hi : ws.length ≤ i) (hn : i < ws.length + n) :
    (extendWords n ws).getD i zeroWord =
      xorWord ((extendWords n ws).getD (i - 4) zeroWord)
        (scheduleTemp i ((extendWords n ws).getD (i - 1) zeroWord)) := by
  induction n generalizing ws with
  | zero => omega
  | succ n ih =>
    obtain rfl | hlt := hi.eq_or_lt
    · rw [extendWords_getD_length, extendWords_getD_of_lt (by omega), extendWords_getD_of_lt (by omega), nextWord]
    · have length : (ws ++ [nextWord ws]).length = ws.length + 1 := List.length_append
      exact ih (by omega) (by omega) (by omega)

/-! ### The words of a key (R113, steps 1 and 2) -/

theorem scheduleWord_eq_keyWord (key : Block) (i : Fin 4) : scheduleWord key i.val = keyWord key i :=
  (extendWords_getD_of_lt i.isLt 40).trans (by fin_cases i <;> rfl)

theorem scheduleWord_recurrence (key : Block) (h : 4 ≤ i) (h' : i < 44) :
    scheduleWord key i = xorWord (scheduleWord key (i - 4)) (scheduleTemp i (scheduleWord key (i - 1))) :=
  extendWords_getD_recurrence 40 (Nat.le_refl 4) h h'

/-- R113, step 1: the first four words are the bytes of the key. -/
theorem scheduleWord_get_of_key (key : Block) (i j : Fin 4) :
    (scheduleWord key i.val)[j.val] = key[4 * i.val + j.val] := by
  rw [scheduleWord_eq_keyWord key i, keyWord, Vector.getElem_ofFn]

theorem xorWord_eq (a b : KeyWord) : xorWord a b = #v[a[0] ^^^ b[0], a[1] ^^^ b[1], a[2] ^^^ b[2], a[3] ^^^ b[3]] := by
  ext1 i hi
  rw [xorWord, Vector.getElem_ofFn]
  interval_cases i <;> rfl

/-- R113, step 2, byte by byte: RCON is in the first byte of every fourth word and nowhere else. -/
theorem xorWord_scheduleTemp (i : Nat) (w p : KeyWord) : xorWord w (scheduleTemp i p) =
    if i % 4 = 0 then
      #v[w[0] ^^^ (sbox p[1] ^^^ rcon (i / 4)), w[1] ^^^ sbox p[2], w[2] ^^^ sbox p[3], w[3] ^^^ sbox p[0]]
    else #v[w[0] ^^^ p[0], w[1] ^^^ p[1], w[2] ^^^ p[2], w[3] ^^^ p[3]] := by
  rw [xorWord_eq, scheduleTemp]
  split <;> rfl

/-! ### The round keys (R113, step 3) -/

theorem expand_get (key : Block) (r : Fin 11) (j k : Fin 4) :
    (expand key)[r][4 * j.val + k.val] = (scheduleWord key (4 * r.val + j.val))[k.val] := by
  have word : (4 * j.val + k.val) / 4 = j.val := by omega
  have byte : (4 * j.val + k.val) % 4 = k.val := by omega
  simp only [expand, Fin.getElem_fin, Vector.getElem_ofFn, word, byte]

/-- The words of round key 0 are the words of the key. -/
theorem expand_zero (key : Block) : (expand key)[0] = key := by
  refine block_ext_rows_columns fun k j => ?_
  have word : 4 * (0 : Fin 11).val + j.val = j.val := Nat.zero_add j.val
  have bytes : (expand key)[0][4 * j.val + k.val] = key[4 * j.val + k.val] := by
    refine (expand_get key 0 j k).trans ?_
    rw [word, scheduleWord_get_of_key]
  simpa only [Nat.add_comm] using bytes

theorem rcon_succ {j : Nat} (h : 1 ≤ j) (h' : j < 10) : rcon (j + 1) = xtime (rcon j) := by
  interval_cases j <;> rfl

/-- Settles O13: the loop's recurrence, read from the finished words and written out byte by byte. -/
theorem expandFollowsTheRecurrence : Obligations.ExpandFollowsTheRecurrence := by
  unfold Obligations.ExpandFollowsTheRecurrence
  refine ⟨rfl, fun _ => rcon_succ, fun _ _ _ _ => ⟨rfl, rfl⟩,
    fun key => ⟨scheduleWord_get_of_key key, fun i w p h h' hw hp => ?_, expand_get key⟩⟩
  rw [scheduleWord_recurrence key h h', xorWord_scheduleTemp, hw, hp]

/-! ### KEYEXP (R114) -/

theorem exec_keyexp_of_ready (h : s.fault = false) : exec .keyexp s = .next (s.setRk (expand s.key)) :=
  ifReady_of_ready h _

/-- The first byte of word 4 of the zero key is SBOX[0] xor RCON[1], which is not 0. -/
theorem expand_zeroBlock_ne_zero : expand zeroBlock ≠ zeroRoundKeys := by
  intro h
  have byte : (expand zeroBlock)[1][0] = sbox 0x00#8 ^^^ rcon 1 := by decide
  rw [h] at byte
  exact absurd byte (by decide)

/-- Settles O14: KEYEXP is one write of RK, which neither KEY nor FAULT sees; so a second KEYEXP writes the same
schedule. -/
theorem keyexpInstallsTheSchedule : Obligations.KeyexpInstallsTheSchedule := by
  unfold Obligations.KeyexpInstallsTheSchedule
  refine ⟨rfl, fun s h => exec_keyexp_of_ready h, fun s h => exec_of_fault nofun h, expand_zero, fun s h => ?_,
    expand_zeroBlock_ne_zero⟩
  have once := exec_keyexp_of_ready h
  rw [execAll_cons_of_next once, execAll_singleton, once]
  exact exec_keyexp_of_ready h

end Sys2Proof.Machine
end

section
/-! The key codec (43_key_codec.md R121 to R124): an equation for each case of `normalize`, the bytes that each accepting
case gives, and how the text path's test compares with the length of the UTF-8 encoding. -/

namespace Sys2Proof.Machine

variable {s : State} {es : List Elem} {u : Elem} {i : Nat}

/-! ### The cases of `normalize` (R121) -/

theorem normalize_bin_of_length (h : es.length = 16) : normalize tagBin es = .ok (elemBytes es) := by
  rw [normalize, if_pos rfl, if_pos h]

theorem normalize_bin_of_length_ne (h : es.length ≠ 16) : normalize tagBin es = .error .invalidKeyLength := by
  rw [normalize, if_pos rfl, if_neg h]

/-- A string of 32 characters is taken as hex, and its length alone decides that. -/
theorem normalize_str_of_length_hex (h : es.length = 32) : normalize tagStr es =
    if es.all isHexDigit then .ok (hexDecode es) else .error .invalidKeyEncoding := by
  rw [normalize, if_neg (by decide), if_pos rfl, if_pos h]

/-- A string of 16 characters is taken as text, and its length alone decides that. -/
theorem normalize_str_of_length_text (h : es.length = 16) : normalize tagStr es =
    if es.all (fun u => decide (u.toNat < 0x80)) then .ok (elemBytes es) else .error .invalidKeyLength := by
  rw [normalize, if_neg (by decide), if_pos rfl, if_neg (by omega), if_pos h]

theorem normalize_str_of_length_ne (h : es.length ≠ 16) (h' : es.length ≠ 32) :
    normalize tagStr es = .error .invalidKeyFormat := by
  rw [normalize, if_neg (by decide), if_pos rfl, if_neg h', if_neg h]

theorem normalize_of_reserved_tag {tag : BitVec 2} (h : tag = 2#2 ∨ tag = 3#2) (es : List Elem) :
    normalize tag es = .error .invalidKeyFormat := by
  obtain rfl | rfl := h
  · rfl
  · rfl

theorem normalize_str_of_hexDigits (h : es.length = 32) (hd : ∀ u ∈ es, isHexDigit u = true) :
    normalize tagStr es = .ok (hexDecode es) := by
  rw [normalize_str_of_length_hex h, if_pos (List.all_eq_true.2 hd)]

theorem normalize_str_of_not_hexDigit (h : es.length = 32) (hd : ∃ u ∈ es, isHexDigit u = false) :
    normalize tagStr es = .error .invalidKeyEncoding := by
  rw [normalize_str_of_length_hex h, if_neg (by simpa using hd)]

theorem normalize_str_of_ascii (h : es.length = 16) (ha : ∀ u ∈ es, u.toNat < 0x80) :
    normalize tagStr es = .ok (elemBytes es) := by
  rw [normalize_str_of_length_text h, if_pos (by simpa using ha)]

theorem normalize_str_of_not_ascii (h : es.length = 16) (ha : ∃ u ∈ es, 0x80 ≤ u.toNat) :
    normalize tagStr es = .error .invalidKeyLength := by
  rw [normalize_str_of_length_text h, if_neg (by simpa using ha)]

/-! ### The bytes of a key (R121, R122) -/

theorem elemBytes_get (es : List Elem) (h : i < 16) (h' : i < es.length) : (elemBytes es)[i] = es[i].setWidth 8 := by
  rw [elemBytes, Vector.getElem_ofFn, getD_of_lt es _ h']

theorem elemBytes_get_toNat (h : i < 16) (h' : i < es.length) (byte : es[i].toNat < 256) :
    (elemBytes es)[i].toNat = es[i].toNat := by
  rw [elemBytes_get es h h', BitVec.toNat_setWidth, Nat.mod_eq_of_lt byte]

theorem elemBytes_toList (h : es.length = 16) : (elemBytes es).toList = es.map (BitVec.setWidth 8) := by
  refine List.ext_getElem (by simp [h]) fun i hi hi' => ?_
  rw [Vector.getElem_toList, elemBytes_get es (by simpa using hi) (by simpa using hi'), List.getElem_map]

/-- Settles O15: each case is one equation of `normalize`; an element below 256 is the byte it is cut to. -/
theorem normalizeDecidesByTagAndLength : Obligations.NormalizeDecidesByTagAndLength := by
  unfold Obligations.NormalizeDecidesByTagAndLength
  refine ⟨fun es h => ⟨_, normalize_bin_of_length h, fun i hi hi' => elemBytes_get_toNat hi hi'⟩,
    fun es => normalize_bin_of_length_ne, fun es => normalize_str_of_hexDigits, fun es => normalize_str_of_not_hexDigit,
    fun es h ha => ⟨_, normalize_str_of_ascii h ha, fun i hi hi' => ?_⟩, fun es => normalize_str_of_not_ascii,
    fun es => normalize_str_of_length_ne, fun tag es ht => normalize_of_reserved_tag ht es⟩
  have ascii : es[i].toNat < 0x80 := ha _ (List.getElem_mem hi')
  exact elemBytes_get_toNat hi hi' (by omega)

/-- A hex digit is a nibble, so two of them fill a byte and no more. -/
theorem hexVal_lt_of_isHexDigit (h : isHexDigit u = true) : hexVal u < 16 := by
  simp only [isHexDigit, Bool.or_eq_true, Bool.and_eq_true, decide_eq_true_eq] at h
  unfold hexVal
  split
  · omega
  · split <;> omega

theorem hexDecode_get_toNat (hd : ∀ u ∈ es, isHexDigit u = true) (h : i < 16) (h0 : 2 * i < es.length)
    (h1 : 2 * i + 1 < es.length) : (hexDecode es)[i].toNat = 16 * hexVal es[2 * i] + hexVal es[2 * i + 1] := by
  have high := hexVal_lt_of_isHexDigit (hd _ (List.getElem_mem h0))
  have low := hexVal_lt_of_isHexDigit (hd _ (List.getElem_mem h1))
  rw [hexDecode, Vector.getElem_ofFn, getD_of_lt es _ h0, getD_of_lt es _ h1, BitVec.toNat_ofNat,
    Nat.mod_eq_of_lt (by omega)]

/-- Settles O16: the formula holds for nibbles, which the values of hex digits are; the 22 digits are looked up. -/
theorem hexKeysReadTheHighDigitFirst : Obligations.HexKeysReadTheHighDigitFirst := by
  unfold Obligations.HexKeysReadTheHighDigitFirst
  exact ⟨fun es h hd => ⟨_, normalize_str_of_hexDigits h hd, fun i hi h0 h1 => hexDecode_get_toNat hd hi h0 h1⟩,
    by decide, by decide⟩

/-! ### UTF-8 (R123) -/

theorem utf8_length (u : Elem) : (utf8 u).length =
    if u.toNat < 0x80 then 1 else if u.toNat < 0x800 then 2 else if u.toNat < 0x10000 then 3 else 4 := by
  simp only [utf8, apply_ite List.length, List.length_cons, List.length_nil]

theorem utf8_length_pos (u : Elem) : 1 ≤ (utf8 u).length := by
  rw [utf8_length]
  split_ifs <;> omega

theorem utf8_length_le (u : Elem) : (utf8 u).length ≤ 4 := by
  rw [utf8_length]
  split_ifs <;> omega

theorem utf8_length_eq_one_iff (u : Elem) : (utf8 u).length = 1 ↔ u.toNat < 0x80 := by
  rw [utf8_length]
  split_ifs <;> omega

/-- A code point below 0x80 is encoded as itself. -/
theorem utf8_of_ascii (h : u.toNat < 0x80) : utf8 u = [u.setWidth 8] := by
  rw [utf8, if_pos h, BitVec.ofNat_toNat]

theorem utf8Text_of_ascii (h : ∀ u ∈ es, u.toNat < 0x80) : utf8Text es = es.map (BitVec.setWidth 8) := by
  rw [utf8Text, List.flatMap_congr fun u hu => utf8_of_ascii (h u hu), List.map_eq_flatMap]

theorem utf8Text_cons_length (u : Elem) (es : List Elem) :
    (utf8Text (u :: es)).length = (utf8 u).length + (utf8Text es).length := by
  rw [utf8Text, List.flatMap_cons, List.length_append, utf8Text]

theorem length_le_utf8Text_length (es : List Elem) : es.length ≤ (utf8Text es).length := by
  induction es with
  | nil => exact Nat.le_refl 0
  | cons u es ih =>
    have first := utf8_length_pos u
    rw [utf8Text_cons_length, List.length_cons]
    omega

theorem utf8Text_length_le (es : List Elem) : (utf8Text es).length ≤ 4 * es.length := by
  induction es with
  | nil => exact Nat.le_refl 0
  | cons u es ih =>
    have first := utf8_length_le u
    rw [utf8Text_cons_length, List.length_cons]
    omega

/-- No code point takes less than one byte, so a text of as many bytes as code points has none that takes more. -/
theorem utf8Text_length_eq_iff (es : List Elem) : (utf8Text es).length = es.length ↔ ∀ u ∈ es, u.toNat < 0x80 := by
  induction es with
  | nil => simp [utf8Text]
  | cons u es ih =>
    have first := utf8_length_pos u
    have rest := length_le_utf8Text_length es
    rw [List.forall_mem_cons, ← ih, ← utf8_length_eq_one_iff, utf8Text_cons_length, List.length_cons]
    omega

/-- Settles O17: the encoding of 16 code points has 16 bytes exactly when the test of the text path passes. -/
theorem textKeysAreTheirUtf8Bytes : Obligations.TextKeysAreTheirUtf8Bytes := by
  unfold Obligations.TextKeysAreTheirUtf8Bytes
  intro es h
  have ascii := utf8Text_length_eq_iff es
  have least := length_le_utf8Text_length es
  have most := utf8Text_length_le es
  rw [h] at ascii least most
  refine ⟨fun h16 => ?_, fun hne => ⟨?_, by omega, by omega⟩, ascii, fun ha => ?_, utf8_length⟩
  · have ha := ascii.1 h16
    exact ⟨_, normalize_str_of_ascii h ha, by rw [elemBytes_toList h, utf8Text_of_ascii ha]⟩
  · have ha : ¬ ∀ u ∈ es, u.toNat < 0x80 := mt ascii.2 hne
    push Not at ha
    exact normalize_str_of_not_ascii h ha
  · rw [normalize_str_of_ascii h ha, normalize_bin_of_length h]

/-! ### KEYLD (R124) -/

theorem exec_keyld_of_ok {k : Block} (h : s.fault = false) (hk : normalize s.ktag s.keyin = .ok k) :
    exec .keyld s = .next (s.setKey k) := by
  refine (ifReady_of_ready h _).trans ?_
  rw [hk, orRaise_ok]

theorem exec_keyld_of_error {e : FaultCause} (h : s.fault = false) (he : normalize s.ktag s.keyin = .error e) :
    exec .keyld s = .next (enterFault e (encode .keyld) s) := by
  refine (ifReady_of_ready h _).trans ?_
  rw [he, orRaise_error]

theorem normalize_bin_eq_error_iff (es : List Elem) :
    normalize tagBin es = .error .invalidKeyLength ↔ es.length ≠ 16 := by
  refine ⟨fun he h => ?_, normalize_bin_of_length_ne⟩
  rw [normalize_bin_of_length h] at he
  cases he

/-- Settles O19: KEYLD is one write of KEY, or the fault entry alone. -/
theorem keyldLoadsTheNormalisedKey : Obligations.KeyldLoadsTheNormalisedKey := by
  unfold Obligations.KeyldLoadsTheNormalisedKey
  exact ⟨rfl, fun s k h hk => exec_keyld_of_ok h hk, fun s e h he => exec_keyld_of_error h he,
    fun s h => exec_of_fault nofun h, normalize_bin_eq_error_iff⟩

end Sys2Proof.Machine
end

section
/-! The padder (44_pkcs7_padder.md R130 to R133): `pad` and `unpad` are both said with one tail, p bytes of value p with
p in 1..16. `pad` appends the tail, `unpad` takes it off, and a sequence without such a tail is InvalidPadding. -/

namespace Sys2Proof.Machine

variable {s : State} {d r : List Byte} {p : Nat}

/-- The p bytes of value p that padding adds (R130) and that checks (a) to (d) ask for (R132). -/
def padTail (p : Nat) : List Byte := List.replicate p (BitVec.ofNat 8 p)

@[simp] theorem padTail_length (p : Nat) : (padTail p).length = p := List.length_replicate

theorem padTail_toNat (p : Byte) : padTail p.toNat = List.replicate p.toNat p := by
  rw [padTail, BitVec.ofNat_toNat, BitVec.setWidth_eq]

/-! ### `pad` (R130) -/

theorem pad_eq (d : List Byte) : pad d = d ++ padTail (padLength d) := rfl

theorem padLength_pos (d : List Byte) : 1 ≤ padLength d := by
  unfold padLength
  omega

theorem padLength_le (d : List Byte) : padLength d ≤ 16 := Nat.sub_le ..

theorem padLength_of_multiple (h : d.length % 16 = 0) : padLength d = 16 := by
  rw [padLength, h]

theorem pad_length (d : List Byte) : (pad d).length = 16 * (d.length / 16 + 1) := by
  rw [pad_eq, List.length_append, padTail_length, padLength]
  omega

/-! ### `unpad` (R132) -/

theorem getLast?_append_padTail (h : 1 ≤ p) (r : List Byte) :
    (r ++ padTail p).getLast? = some (BitVec.ofNat 8 p) := by
  rw [padTail, List.getLast?_append, List.getLast?_replicate, if_neg (by omega), Option.some_or]

/-- The last byte of the tail tells its length, so `unpad` takes off the whole tail and no more. -/
theorem unpad_append_padTail (h : 1 ≤ p) (h' : p ≤ 16) (r : List Byte) : unpad (r ++ padTail p) = .ok r := by
  have count : (BitVec.ofNat 8 p).toNat = p := by
    rw [BitVec.toNat_ofNat]
    omega
  have start : (r ++ padTail p).length - p = r.length := by simp
  have bytes : (padTail p).any (fun x => x != BitVec.ofNat 8 p) = false := by simp [padTail]
  simp only [unpad, getLast?_append_padTail h, count, start, List.drop_left, List.take_left, bytes]
  rw [if_neg (by omega), if_neg (by simp), if_neg (by decide)]

/-- What passes checks (a) to (d) ends in a tail: the last n bytes are all n, where n is the last byte. -/
theorem unpad_cases (d : List Byte) :
    unpad d = .error .invalidPadding ∨ ∃ r p, 1 ≤ p ∧ p ≤ 16 ∧ d = r ++ padTail p := by
  unfold unpad
  split
  case h_1 => exact .inl rfl
  case h_2 p _ =>
    split_ifs with range fits bytes
    · exact .inl rfl
    · exact .inl rfl
    · exact .inl rfl
    · have tail : d.drop (d.length - p.toNat) = padTail p.toNat := by
        rw [padTail_toNat, List.eq_replicate_iff, List.length_drop]
        exact ⟨by omega, by simpa using bytes⟩
      refine .inr ⟨d.take (d.length - p.toNat), p.toNat, by omega, by omega, ?_⟩
      rw [← tail, List.take_append_drop]

theorem unpad_eq_ok_iff : unpad d = .ok r ↔ ∃ p, 1 ≤ p ∧ p ≤ 16 ∧ d = r ++ padTail p := by
  constructor
  · intro h
    obtain he | ⟨r', p, hp, hp', rfl⟩ := unpad_cases d
    · rw [he] at h
      cases h
    · rw [unpad_append_padTail hp hp'] at h
      cases h
      exact ⟨p, hp, hp', rfl⟩
  · rintro ⟨p, hp, hp', rfl⟩
    exact unpad_append_padTail hp hp' r

/-- InvalidPadding is the only error of `unpad`. -/
theorem eq_invalidPadding_of_unpad_eq_error {e : FaultCause} (h : unpad d = .error e) : e = .invalidPadding := by
  obtain he | ⟨r, p, hp, hp', rfl⟩ := unpad_cases d
  · rw [he] at h
    cases h
    rfl
  · rw [unpad_append_padTail hp hp'] at h
    cases h

/-- Settles O20: `pad` appends the tail of the pad length, and `unpad` accepts exactly what ends in a tail. -/
theorem padAppendsAndUnpadChecksThePadBytes : Obligations.PadAppendsAndUnpadChecksThePadBytes := by
  unfold Obligations.PadAppendsAndUnpadChecksThePadBytes
  exact ⟨pad_length, fun d => ⟨padLength d, padLength_pos d, padLength_le d, padLength_of_multiple, pad_eq d⟩,
    fun d r => unpad_eq_ok_iff, fun d e => eq_invalidPadding_of_unpad_eq_error⟩

/-! ### PAD and UNPAD (R131, R133) -/

theorem exec_pad_of_fits (h : s.fault = false) (hl : (pad s.ibuf).length < 2 ^ 64) :
    exec .pad s = .next (s.setObuf (pad s.ibuf)) :=
  (ifReady_of_ready h _).trans (withOutput_of_fits hl _)

theorem exec_unpad_of_ok (h : s.fault = false) (hr : unpad s.ibuf = .ok r) (hl : r.length < 2 ^ 64) :
    exec .unpad s = .next (s.setObuf r) := by
  refine (ifReady_of_ready h _).trans ?_
  rw [hr, orRaise_ok, withOutput_of_fits hl]

theorem exec_unpad_of_error {e : FaultCause} (h : s.fault = false) (he : unpad s.ibuf = .error e) :
    exec .unpad s = .next (enterFault e (encode .unpad) s) := by
  refine (ifReady_of_ready h _).trans ?_
  rw [he, orRaise_error]

/-- Settles O22: PAD and UNPAD are one write of OBUF, and UNPAD's only fault is InvalidPadding; what UNPAD delivers is
shorter than IBUF. -/
theorem padAndUnpadCommandsComplete : Obligations.PadAndUnpadCommandsComplete := by
  unfold Obligations.PadAndUnpadCommandsComplete
  refine ⟨rfl, rfl, fun s h hl => exec_pad_of_fits h ?_, fun s r p h hl hp hp' hd => ?_, fun s e h he => ?_,
    fun s h => ⟨exec_of_fault nofun h, exec_of_fault nofun h⟩⟩
  · rwa [pad_length]
  · have unpadded : unpad s.ibuf = .ok r := unpad_eq_ok_iff.2 ⟨p, hp, hp', hd⟩
    have shorter : r.length < 2 ^ 64 := by
      rw [hd, List.length_append] at hl
      omega
    exact exec_unpad_of_ok h unpadded shorter
  · obtain rfl := eq_invalidPadding_of_unpad_eq_error he
    exact exec_unpad_of_error h he

end Sys2Proof.Machine
end

section
/-! ENCB, DECB and their 40-command listings (45_block_engine.md R140 to R143). Each round command is one write of ST by
a function of RK and ST; so is a sequence of them, by the composed function, and the functions that the two listings
compose are `encryptBlock` and `decryptBlock`. -/

namespace Sys2Proof.Machine

variable {s t : State}

/-! ### What each command answers when FAULT = 0 -/

theorem exec_isubb_of_ready (h : s.fault = false) : exec .isubb s = .next (s.setSt (invSubBytes s.st)) :=
  ifReady_of_ready h _

theorem exec_ishrow_of_ready (h : s.fault = false) : exec .ishrow s = .next (s.setSt (invShiftRows s.st)) :=
  ifReady_of_ready h _

theorem exec_imixc_of_ready (h : s.fault = false) : exec .imixc s = .next (s.setSt (invMixColumns s.st)) :=
  ifReady_of_ready h _

theorem exec_encb_of_ready (h : s.fault = false) : exec .encb s = .next (s.setSt (encryptBlock s.st s.rk)) :=
  ifReady_of_ready h _

theorem exec_decb_of_ready (h : s.fault = false) : exec .decb s = .next (s.setSt (decryptBlock s.st s.rk)) :=
  ifReady_of_ready h _

/-! ### Sequences that only write ST -/

/-- R50: the commands of `is`, then those of `js`. -/
theorem execAll_append_of_next {is : List Instr} (h : execAll is s = .next t) (js : List Instr) :
    execAll (is ++ js) s = execAll js t := by
  induction is generalizing s with
  | nil =>
    rw [execAll_nil] at h
    cases h
    rfl
  | cons i is ih =>
    cases hi : exec i s with
    | next u =>
      rw [execAll_cons_of_next hi] at h
      rw [List.cons_append, execAll_cons_of_next hi, ih h]
    | fault r =>
      rw [execAll, hi] at h
      cases h
    | refused r =>
      rw [execAll, hi] at h
      cases h

/-- When FAULT = 0, the commands `is` in sequence complete, `f` gives the new ST from RK and ST, and nothing else
changes. -/
def WritesSt (is : List Instr) (f : RoundKeys → Block → Block) : Prop :=
  ∀ s : State, s.fault = false → execAll is s = .next (s.setSt (f s.rk s.st))

namespace WritesSt

variable {is js : List Instr} {f g : RoundKeys → Block → Block}

theorem nil : WritesSt [] fun _ b => b := fun s _ => execAll_nil s

theorem singleton {i : Instr} (h : ∀ s : State, s.fault = false → exec i s = .next (s.setSt (f s.rk s.st))) :
    WritesSt [i] f := fun s hs => (execAll_singleton i s).trans (h s hs)

/-- A write of ST changes neither FAULT nor RK, so the second sequence is ready too and reads the same round keys. -/
theorem append (hf : WritesSt is f) (hg : WritesSt js g) : WritesSt (is ++ js) fun rk b => g rk (f rk b) :=
  fun s h => (execAll_append_of_next (hf s h) js).trans (hg (s.setSt (f s.rk s.st)) h)

theorem cons {i : Instr} (hf : WritesSt [i] f) (hg : WritesSt js g) : WritesSt (i :: js) fun rk b => g rk (f rk b) :=
  append hf hg

/-- One sequence per round: ST is folded through the rounds in their order. -/
theorem flatMap {α : Type} {commands : α → List Instr} {round : RoundKeys → Block → α → Block}
    (h : ∀ a, WritesSt (commands a) fun rk b => round rk b a) (as : List α) :
    WritesSt (as.flatMap commands) fun rk b => as.foldl (round rk) b := by
  induction as with
  | nil => exact nil
  | cons a as ih => exact append (h a) ih

theorem subb : WritesSt [.subb] fun _ => subBytes := singleton fun _ => exec_subb_of_ready

theorem shrow : WritesSt [.shrow] fun _ => shiftRows := singleton fun _ => exec_shrow_of_ready

theorem mixc : WritesSt [.mixc] fun _ => mixColumns := singleton fun _ => exec_mixc_of_ready

theorem isubb : WritesSt [.isubb] fun _ => invSubBytes := singleton fun _ => exec_isubb_of_ready

theorem ishrow : WritesSt [.ishrow] fun _ => invShiftRows := singleton fun _ => exec_ishrow_of_ready

theorem imixc : WritesSt [.imixc] fun _ => invMixColumns := singleton fun _ => exec_imixc_of_ready

theorem addrk (r : Fin 11) : WritesSt [.addrk (BitVec.ofNat 4 r.val)] fun rk b => xor16 b (roundKey r rk) :=
  singleton fun _ h => exec_addrk_of_ready h r

/-! ### The macros and the listings (R67)

The ascriptions `( :)` let the commands fix the composed function before it is compared with the cipher's. -/

theorem macroRound (r : Fin 11) :
    WritesSt (Machine.macroRound (BitVec.ofNat 4 r.val)) fun rk b => encRound rk b r :=
  (subb.cons (shrow.cons (mixc.cons (addrk r))) :)

theorem macroIround (r : Fin 11) :
    WritesSt (Machine.macroIround (BitVec.ofNat 4 r.val)) fun rk b => decRound rk b r :=
  ((addrk r).cons (imixc.cons (ishrow.cons isubb)) :)

theorem macroFround :
    WritesSt Machine.macroFround fun rk b => xor16 (shiftRows (subBytes b)) (roundKey 10 rk) :=
  (subb.cons (shrow.cons (addrk 10)) :)

theorem encbListing : WritesSt Machine.encbListing fun rk b => encryptBlock b rk :=
  (((addrk 0).append (flatMap macroRound fullRounds)).append macroFround :)

theorem decbListing : WritesSt Machine.decbListing fun rk b => decryptBlock b rk :=
  ((((addrk 10).cons (ishrow.cons isubb)).append (flatMap macroIround fullRounds.reverse)).append (addrk 0) :)

end WritesSt

/-- Settles O23: a command and its listing write ST by the same function. -/
theorem encbAndDecbEqualTheirRoundCommands : Obligations.EncbAndDecbEqualTheirRoundCommands := by
  unfold Obligations.EncbAndDecbEqualTheirRoundCommands
  exact ⟨rfl, rfl, rfl, rfl,
    fun s h => ⟨exec_encb_of_ready h, WritesSt.encbListing s h, exec_decb_of_ready h, WritesSt.decbListing s h⟩,
    fun s h => ⟨exec_of_fault nofun h, exec_of_fault nofun h⟩⟩

end Sys2Proof.Machine
end

section
/-! ECB chaining (45_block_engine.md R144 to R146): what `mapBlocks` returns, block by block, the chain's two cases, and
the commands ECBE and ECBD. -/

namespace Sys2Proof.Machine

variable {s : State} {d out : List Byte} {n k : Nat}

/-! ### The blocks of the chain (R144) -/

theorem Block.ofBytes_take (d : List Byte) : Block.ofBytes (d.take 16) = Block.ofBytes d := by
  ext1 i hi
  simp [List.getElem?_take_of_lt hi]

@[simp] theorem mapBlocks_length (f : Block → Block) (n : Nat) (d : List Byte) :
    (mapBlocks f n d).length = 16 * n := by
  induction n generalizing d with
  | zero => rfl
  | succ n ih =>
    rw [mapBlocks, List.length_append, Vector.length_toList, ih]
    omega

/-- Block `k` of the result is `f` of block `k` of the input: both are the first block of what is left once `k` blocks
are dropped. -/
theorem slice_mapBlocks (f : Block → Block) (h : k < n) (d : List Byte) :
    slice (mapBlocks f n d) (16 * k) 16 = (f (Block.ofBytes (slice d (16 * k) 16))).toList := by
  induction n generalizing k d with
  | zero => exact absurd h (Nat.not_lt_zero k)
  | succ n ih =>
    have first : (f (Block.ofBytes d)).toList.length = 16 := Vector.length_toList
    cases k with
    | zero => rw [mapBlocks, slice, slice, Nat.mul_zero, List.drop_zero, List.drop_zero, List.take_left' first,
        Block.ofBytes_take]
    | succ k =>
      have rest : 16 * (k + 1) = 16 + 16 * k := by omega
      have := ih (Nat.lt_of_succ_lt_succ h) (d.drop 16)
      rw [slice, slice, List.drop_drop] at this
      rw [mapBlocks, slice, slice, rest, ← List.drop_drop, List.drop_left' first, this]

/-! ### The chain's two cases (R144) -/

theorem ecb_of_ragged (f : Block → Block) (h : d.length % 16 ≠ 0) : ecb f d = .error .invalidBlockSize := if_pos h

theorem ecb_of_multiple (f : Block → Block) (h : d.length % 16 = 0) : ecb f d = .ok (mapBlocks f (d.length / 16) d) :=
  if_neg (not_not_intro h)

theorem mapBlocks_length_of_multiple (f : Block → Block) (h : d.length % 16 = 0) :
    (mapBlocks f (d.length / 16) d).length = d.length := by
  rw [mapBlocks_length]
  omega

/-- Settles O25: both directions are `ecb` of one block function, and `mapBlocks` applies it to each block alone. -/
theorem ecbWorksBlockByBlock : Obligations.EcbWorksBlockByBlock := by
  unfold Obligations.EcbWorksBlockByBlock
  refine fun d rk => ⟨fun h => ⟨ecb_of_ragged _ h, ecb_of_ragged _ h⟩, fun h => ?_⟩
  exact ⟨_, _, ecb_of_multiple _ h, ecb_of_multiple _ h, mapBlocks_length_of_multiple _ h,
    mapBlocks_length_of_multiple _ h, fun k hk => ⟨slice_mapBlocks _ hk d, slice_mapBlocks _ hk d⟩⟩

/-! ### ECBE and ECBD (R145, R146) -/

theorem exec_ecbe_of_ok (h : s.fault = false) (hc : ecbEncrypt s.ibuf s.rk = .ok out) (hl : out.length < 2 ^ 64) :
    exec .ecbe s = .next ((s.setObuf out).setSt zeroBlock) := by
  refine (ifReady_of_ready h _).trans ?_
  rw [hc, orRaise_ok, withOutput_of_fits hl]

theorem exec_ecbd_of_ok (h : s.fault = false) (hp : ecbDecrypt s.ibuf s.rk = .ok out) (hl : out.length < 2 ^ 64) :
    exec .ecbd s = .next ((s.setObuf out).setSt zeroBlock) := by
  refine (ifReady_of_ready h _).trans ?_
  rw [hp, orRaise_ok, withOutput_of_fits hl]

theorem exec_ecbe_of_error {e : FaultCause} (h : s.fault = false) (he : ecbEncrypt s.ibuf s.rk = .error e) :
    exec .ecbe s = .next (enterFault e (encode .ecbe) s) := by
  refine (ifReady_of_ready h _).trans ?_
  rw [he, orRaise_error]

theorem exec_ecbd_of_error {e : FaultCause} (h : s.fault = false) (he : ecbDecrypt s.ibuf s.rk = .error e) :
    exec .ecbd s = .next (enterFault e (encode .ecbd) s) := by
  refine (ifReady_of_ready h _).trans ?_
  rw [he, orRaise_error]

/-- Settles O27: the chain's result is as long as IBUF, so it fits OBUF; a ragged IBUF is the chain's only error. -/
theorem ecbeAndEcbdComplete : Obligations.EcbeAndEcbdComplete := by
  unfold Obligations.EcbeAndEcbdComplete
  refine ⟨rfl, rfl, fun s h hm hl => ?_, fun s h hm => ?_,
    fun s h => ⟨exec_of_fault nofun h, exec_of_fault nofun h⟩⟩
  · have fits : ∀ f, (mapBlocks f (s.ibuf.length / 16) s.ibuf).length < 2 ^ 64 := fun f =>
      (mapBlocks_length_of_multiple f hm).trans_lt hl
    have encrypted : ecbEncrypt s.ibuf s.rk = .ok _ := ecb_of_multiple _ hm
    have decrypted : ecbDecrypt s.ibuf s.rk = .ok _ := ecb_of_multiple _ hm
    exact ⟨_, _, encrypted, decrypted, exec_ecbe_of_ok h encrypted (fits _), exec_ecbd_of_ok h decrypted (fits _)⟩
  · exact ⟨exec_ecbe_of_error h (ecb_of_ragged _ hm), exec_ecbd_of_error h (ecb_of_ragged _ hm)⟩

end Sys2Proof.Machine
end

section
/-! Base64 (46_base64.md R155 to R159): the alphabet, the two views of a group as 24 bits, the encoder group by group,
and the decoder, which takes back exactly what the encoder makes. -/

namespace Sys2Proof.Machine

variable {s : State} {d b t : List Byte}

/-! ### The alphabet (R155) -/

theorem b64Char_toNat (v : BitVec 6) : (b64Char v).toNat =
    if v.toNat < 26 then 0x41 + v.toNat else if v.toNat < 52 then 0x61 + (v.toNat - 26)
    else if v.toNat < 62 then 0x30 + (v.toNat - 52) else if v.toNat = 62 then 0x2b else 0x2f := by
  revert v
  decide

@[simp] theorem b64Val_b64Char : ∀ v : BitVec 6, b64Val (b64Char v) = some v := by decide

theorem b64Char_of_mem_b64Val : ∀ ch : Byte, ∀ v ∈ b64Val ch, b64Char v = ch := by decide +kernel

theorem b64Val_eq_some_iff (ch : Byte) (v : BitVec 6) : b64Val ch = some v ↔ b64Char v = ch :=
  ⟨b64Char_of_mem_b64Val ch v, fun h => h ▸ b64Val_b64Char v⟩

theorem b64Val_b64Pad : b64Val b64Pad = none := by decide

theorem b64Char_ne_b64Pad (v : BitVec 6) : b64Char v ≠ b64Pad := fun h => by
  have := b64Val_b64Char v
  rw [h, b64Val_b64Pad] at this
  cases this

/-! ### The 24 bits of a group: three bytes or four sextets (R156, R158) -/

theorem group24_toNat (b0 b1 b2 : Byte) :
    (group24 b0 b1 b2).toNat = b0.toNat * 65536 + b1.toNat * 256 + b2.toNat := by
  rw [group24, BitVec.toNat_append, BitVec.toNat_append, ← Nat.shiftLeft_add_eq_or_of_lt b2.isLt,
    ← Nat.shiftLeft_add_eq_or_of_lt b1.isLt, Nat.shiftLeft_eq, Nat.shiftLeft_eq]
  omega

theorem ungroup24_toNat (v0 v1 v2 v3 : BitVec 6) :
    (ungroup24 v0 v1 v2 v3).toNat = v0.toNat * 262144 + v1.toNat * 4096 + v2.toNat * 64 + v3.toNat := by
  rw [ungroup24, BitVec.toNat_append, BitVec.toNat_append, BitVec.toNat_append,
    ← Nat.shiftLeft_add_eq_or_of_lt v3.isLt, ← Nat.shiftLeft_add_eq_or_of_lt v2.isLt,
    ← Nat.shiftLeft_add_eq_or_of_lt v1.isLt, Nat.shiftLeft_eq, Nat.shiftLeft_eq, Nat.shiftLeft_eq]
  omega

theorem groupByte_toNat (v : BitVec 24) (k : Nat) : (groupByte v k).toNat = v.toNat / 2 ^ (16 - 8 * k) % 256 := by
  rw [groupByte, BitVec.extractLsb'_toNat, Nat.shiftRight_eq_div_pow]

theorem sextet_toNat (v : BitVec 24) (k : Nat) : (sextet v k).toNat = v.toNat / 2 ^ (18 - 6 * k) % 64 := by
  rw [sextet, BitVec.extractLsb'_toNat, Nat.shiftRight_eq_div_pow]

/-- The bytes of a group are its three bytes and no others. -/
theorem group24_eq_iff {b0 b1 b2 : Byte} {v : BitVec 24} :
    group24 b0 b1 b2 = v ↔ groupByte v 0 = b0 ∧ groupByte v 1 = b1 ∧ groupByte v 2 = b2 := by
  simp only [← BitVec.toNat_inj, group24_toNat, groupByte_toNat]
  omega

/-- The sextets of a group are its four sextets and no others. -/
theorem ungroup24_eq_iff {v0 v1 v2 v3 : BitVec 6} {v : BitVec 24} :
    ungroup24 v0 v1 v2 v3 = v ↔ sextet v 0 = v0 ∧ sextet v 1 = v1 ∧ sextet v 2 = v2 ∧ sextet v 3 = v3 := by
  simp only [← BitVec.toNat_inj, ungroup24_toNat, sextet_toNat]
  omega

theorem group24_groupByte (v : BitVec 24) : group24 (groupByte v 0) (groupByte v 1) (groupByte v 2) = v :=
  group24_eq_iff.2 ⟨rfl, rfl, rfl⟩

theorem ungroup24_sextet (v : BitVec 24) : ungroup24 (sextet v 0) (sextet v 1) (sextet v 2) (sextet v 3) = v :=
  ungroup24_eq_iff.2 ⟨rfl, rfl, rfl, rfl⟩

/-! The absent bytes of a tail are 0 exactly when its absent sextets and the unused bits of its last sextet are. -/

theorem groupByte_two_eq_zero_iff {v : BitVec 24} :
    groupByte v 2 = 0#8 ↔ sextet v 3 = 0#6 ∧ (sextet v 2).extractLsb' 0 2 = 0#2 := by
  simp only [← BitVec.toNat_inj, BitVec.extractLsb'_toNat, groupByte_toNat, sextet_toNat, Nat.shiftRight_zero,
    BitVec.toNat_ofNat]
  omega

theorem groupByte_one_two_eq_zero_iff {v : BitVec 24} :
    groupByte v 1 = 0#8 ∧ groupByte v 2 = 0#8 ↔
      sextet v 2 = 0#6 ∧ sextet v 3 = 0#6 ∧ (sextet v 1).extractLsb' 0 4 = 0#4 := by
  simp only [← BitVec.toNat_inj, BitVec.extractLsb'_toNat, groupByte_toNat, sextet_toNat, Nat.shiftRight_zero,
    BitVec.toNat_ofNat]
  omega

/-! ### `b64enc`, group by group (R156) -/

theorem b64Enc_group (b0 b1 b2 : Byte) (rest : List Byte) : b64Enc (b0 :: b1 :: b2 :: rest) =
    [b64Char (sextet (group24 b0 b1 b2) 0), b64Char (sextet (group24 b0 b1 b2) 1),
      b64Char (sextet (group24 b0 b1 b2) 2), b64Char (sextet (group24 b0 b1 b2) 3)] ++ b64Enc rest := rfl

theorem b64Enc_two (b0 b1 : Byte) : b64Enc [b0, b1] =
    [b64Char (sextet (group24 b0 b1 0#8) 0), b64Char (sextet (group24 b0 b1 0#8) 1),
      b64Char (sextet (group24 b0 b1 0#8) 2), b64Pad] := rfl

theorem b64Enc_one (b0 : Byte) : b64Enc [b0] =
    [b64Char (sextet (group24 b0 0#8 0#8) 0), b64Char (sextet (group24 b0 0#8 0#8) 1), b64Pad, b64Pad] := rfl

/-! The same three cases with each sextet written as a number, of which the low 6 bits count. -/

theorem sextet_group24_eq_ofNat {b0 b1 b2 : Byte} {k n : Nat}
    (h : (b0.toNat * 65536 + b1.toNat * 256 + b2.toNat) / 2 ^ (18 - 6 * k) % 64 = n % 64) :
    sextet (group24 b0 b1 b2) k = BitVec.ofNat 6 n :=
  BitVec.eq_of_toNat_eq (by rw [sextet_toNat, group24_toNat, BitVec.toNat_ofNat, h])

theorem b64Enc_three_eq_ofNat {b0 b1 b2 : Byte} {v : Nat} (h : v = b0.toNat * 65536 + b1.toNat * 256 + b2.toNat) :
    b64Enc [b0, b1, b2] = [b64Char (BitVec.ofNat 6 (v / 262144)), b64Char (BitVec.ofNat 6 (v / 4096)),
      b64Char (BitVec.ofNat 6 (v / 64)), b64Char (BitVec.ofNat 6 v)] := by
  rw [b64Enc_group, sextet_group24_eq_ofNat (n := v / 262144), sextet_group24_eq_ofNat (n := v / 4096),
    sextet_group24_eq_ofNat (n := v / 64), sextet_group24_eq_ofNat (n := v)]
  · rfl
  all_goals omega

theorem b64Enc_two_eq_ofNat (b0 b1 : Byte) : b64Enc [b0, b1] =
    [b64Char (BitVec.ofNat 6 (b0.toNat / 4)), b64Char (BitVec.ofNat 6 (b0.toNat * 16 + b1.toNat / 16)),
      b64Char (BitVec.ofNat 6 (b1.toNat * 4)), b64Pad] := by
  rw [b64Enc_two, sextet_group24_eq_ofNat (n := b0.toNat / 4),
    sextet_group24_eq_ofNat (n := b0.toNat * 16 + b1.toNat / 16), sextet_group24_eq_ofNat (n := b1.toNat * 4)]
  all_goals
    rw [BitVec.toNat_ofNat]
    omega

theorem b64Enc_one_eq_ofNat (b0 : Byte) : b64Enc [b0] =
    [b64Char (BitVec.ofNat 6 (b0.toNat / 4)), b64Char (BitVec.ofNat 6 (b0.toNat * 16)), b64Pad, b64Pad] := by
  rw [b64Enc_one, sextet_group24_eq_ofNat (n := b0.toNat / 4), sextet_group24_eq_ofNat (n := b0.toNat * 16)]
  all_goals
    rw [BitVec.toNat_ofNat]
    omega

theorem b64Enc_length (d : List Byte) : (b64Enc d).length = 4 * ((d.length + 2) / 3) := by
  induction d using b64Enc.induct with
  | case1 => rfl
  | case2 b0 => simp [b64Enc_one]
  | case3 b0 b1 => simp [b64Enc_two]
  | case4 b0 b1 b2 rest ih =>
    simp only [b64Enc_group, List.length_append, List.length_cons, List.length_nil, ih]
    omega

/-- `g` full groups of bytes are `4 * g` characters; what follows them is encoded alone. -/
theorem drop_b64Enc {g : Nat} (h : 3 * g ≤ d.length) : (b64Enc d).drop (4 * g) = b64Enc (d.drop (3 * g)) := by
  induction g generalizing d with
  | zero => rfl
  | succ g ih =>
    match d, h with
    | b0 :: b1 :: b2 :: rest, h =>
      simp only [List.length_cons] at h
      exact ih (by omega)

theorem b64Enc_append (h : b.length = 3) (d : List Byte) : b64Enc (b ++ d) = b64Enc b ++ b64Enc d := by
  match b, h with
  | [b0, b1, b2], _ => rfl

theorem drop_eq_getD_cons {n : Nat} (h : n < d.length) : d.drop n = d.getD n 0#8 :: d.drop (n + 1) := by
  rw [List.getD_eq_getElem _ _ h, List.cons_getElem_drop_succ]

theorem slice_b64Enc {g : Nat} (h : g < d.length / 3) : slice (b64Enc d) (4 * g) 4 =
    b64Enc [d.getD (3 * g) 0#8, d.getD (3 * g + 1) 0#8, d.getD (3 * g + 2) 0#8] := by
  rw [slice, drop_b64Enc (by omega), drop_eq_getD_cons (by omega), drop_eq_getD_cons (by omega),
    drop_eq_getD_cons (by omega)]
  rfl

theorem drop_b64Enc_tail_one (h : d.length % 3 = 1) :
    (b64Enc d).drop (4 * (d.length / 3)) = b64Enc [d.getD (d.length - 1) 0#8] := by
  have start : 3 * (d.length / 3) = d.length - 1 := by omega
  rw [drop_b64Enc (by omega), start, drop_eq_getD_cons (by omega), List.drop_eq_nil_of_le (by omega)]

theorem drop_b64Enc_tail_two (h : d.length % 3 = 2) :
    (b64Enc d).drop (4 * (d.length / 3)) = b64Enc [d.getD (d.length - 2) 0#8, d.getD (d.length - 1) 0#8] := by
  have start : 3 * (d.length / 3) = d.length - 2 := by omega
  have next : d.length - 2 + 1 = d.length - 1 := by omega
  rw [drop_b64Enc (by omega), start, drop_eq_getD_cons (by omega), next, drop_eq_getD_cons (by omega),
    List.drop_eq_nil_of_le (by omega)]

/-- Settles O28: dropping whole groups of the text drops whole groups of the bytes, so each group and each tail is
the encoding of its own bytes alone. -/
theorem b64EncodesGroupsOfThree : Obligations.B64EncodesGroupsOfThree := by
  unfold Obligations.B64EncodesGroupsOfThree
  refine ⟨b64Char_toNat, b64Val_eq_some_iff, b64Val_b64Pad, fun d => ⟨b64Enc_length d, fun g v hg hv => ?_,
    fun b0 hd h0 => ?_, fun b0 b1 hd h0 h1 => ?_⟩⟩
  · exact (slice_b64Enc hg).trans (b64Enc_three_eq_ofNat hv)
  · rw [drop_b64Enc_tail_one hd, b64Enc_one_eq_ofNat, h0]
    rfl
  · rw [drop_b64Enc_tail_two hd, b64Enc_two_eq_ofNat, h0, h1]
    rfl

/-! ### `b64dec`, group by group (R158) -/

theorem padCount_cases (last : Bool) (c2 c3 : Byte) :
    padCount last c2 c3 = 0 ∨ (padCount last c2 c3 = 1 ∧ last = true ∧ c3 = b64Pad) ∨
      (padCount last c2 c3 = 2 ∧ last = true ∧ c2 = b64Pad ∧ c3 = b64Pad) := by
  unfold padCount
  split_ifs with two one
  · obtain ⟨⟨hl, h2⟩, h3⟩ : (last = true ∧ c2 = b64Pad) ∧ c3 = b64Pad := by simpa using two
    exact .inr (.inr ⟨rfl, hl, h2, h3⟩)
  · obtain ⟨⟨hl, -⟩, h3⟩ : (last = true ∧ c2 ≠ b64Pad) ∧ c3 = b64Pad := by simpa using one
    exact .inr (.inl ⟨rfl, hl, h3⟩)
  · exact .inl rfl

theorem padCount_b64Char (last : Bool) (c2 : Byte) (v : BitVec 6) : padCount last c2 (b64Char v) = 0 := by
  simp [padCount, b64Char_ne_b64Pad]

theorem padCount_b64Char_b64Pad (v : BitVec 6) : padCount true (b64Char v) b64Pad = 1 := by
  simp [padCount, b64Char_ne_b64Pad]

theorem b64DecGroup_three (last : Bool) (b0 b1 b2 : Byte) :
    b64DecGroup last (b64Char (sextet (group24 b0 b1 b2) 0)) (b64Char (sextet (group24 b0 b1 b2) 1))
      (b64Char (sextet (group24 b0 b1 b2) 2)) (b64Char (sextet (group24 b0 b1 b2) 3)) = .ok [b0, b1, b2] := by
  obtain ⟨h0, h1, h2⟩ := group24_eq_iff.1 (rfl : group24 b0 b1 b2 = _)
  simp only [b64DecGroup, padCount_b64Char, b64Val_b64Char, ungroup24_sextet, h0, h1, h2]

theorem b64DecGroup_two (b0 b1 : Byte) :
    b64DecGroup true (b64Char (sextet (group24 b0 b1 0#8) 0)) (b64Char (sextet (group24 b0 b1 0#8) 1))
      (b64Char (sextet (group24 b0 b1 0#8) 2)) b64Pad = .ok [b0, b1] := by
  obtain ⟨h0, h1, h2⟩ := group24_eq_iff.1 (rfl : group24 b0 b1 0#8 = _)
  obtain ⟨last, unused⟩ := groupByte_two_eq_zero_iff.1 h2
  have group := ungroup24_sextet (group24 b0 b1 0#8)
  rw [last] at group
  simp only [b64DecGroup, padCount_b64Char_b64Pad, b64Val_b64Char, unused, group, h0, h1, ne_eq, not_true, if_false]

theorem b64DecGroup_one (b0 : Byte) :
    b64DecGroup true (b64Char (sextet (group24 b0 0#8 0#8) 0)) (b64Char (sextet (group24 b0 0#8 0#8) 1))
      b64Pad b64Pad = .ok [b0] := by
  obtain ⟨h0, h1, h2⟩ := group24_eq_iff.1 (rfl : group24 b0 0#8 0#8 = _)
  obtain ⟨third, last, unused⟩ := groupByte_one_two_eq_zero_iff.1 ⟨h1, h2⟩
  have group := ungroup24_sextet (group24 b0 0#8 0#8)
  rw [third, last] at group
  have two : padCount true b64Pad b64Pad = 2 := by decide
  simp only [b64DecGroup, two, b64Val_b64Char, unused, group, h0, ne_eq, not_true, if_false]

/-- A group that passes checks (b), (c) and (d) is the encoding of the bytes it gives: three of them, or, at the end of
the text, fewer. -/
theorem b64DecGroup_cases (last : Bool) (c0 c1 c2 c3 : Byte) :
    b64DecGroup last c0 c1 c2 c3 = .error .invalidBase64 ∨ ∃ bs, b64DecGroup last c0 c1 c2 c3 = .ok bs ∧
      b64Enc bs = [c0, c1, c2, c3] ∧ (bs.length = 3 ∨ last = true) := by
  obtain hp | ⟨hp, hl, rfl⟩ | ⟨hp, hl, rfl, rfl⟩ := padCount_cases last c2 c3 <;> simp only [b64DecGroup, hp]
  · split
    case h_2 => exact .inl rfl
    case h_1 v0 v1 v2 v3 h0 h1 h2 h3 =>
      obtain ⟨s0, s1, s2, s3⟩ := ungroup24_eq_iff.1 (rfl : ungroup24 v0 v1 v2 v3 = _)
      rw [b64Val_eq_some_iff] at h0 h1 h2 h3
      refine .inr ⟨_, rfl, ?_, .inl rfl⟩
      rw [b64Enc_group, group24_groupByte, s0, s1, s2, s3, h0, h1, h2, h3]
      rfl
  · split
    case h_2 => exact .inl rfl
    case h_1 v0 v1 v2 h0 h1 h2 =>
      split_ifs with unused
      · exact .inl rfl
      obtain ⟨s0, s1, s2, s3⟩ := ungroup24_eq_iff.1 (rfl : ungroup24 v0 v1 v2 0#6 = _)
      have third := groupByte_two_eq_zero_iff.2 ⟨s3, by rwa [s2, ← not_ne_iff]⟩
      rw [b64Val_eq_some_iff] at h0 h1 h2
      refine .inr ⟨_, rfl, ?_, .inr hl⟩
      rw [b64Enc_two, ← third, group24_groupByte, s0, s1, s2, h0, h1, h2]
  · split
    case h_2 => exact .inl rfl
    case h_1 v0 v1 h0 h1 =>
      split_ifs with unused
      · exact .inl rfl
      obtain ⟨s0, s1, s2, s3⟩ := ungroup24_eq_iff.1 (rfl : ungroup24 v0 v1 0#6 0#6 = _)
      obtain ⟨second, third⟩ := groupByte_one_two_eq_zero_iff.2 ⟨s2, s3, by rwa [s1, ← not_ne_iff]⟩
      rw [b64Val_eq_some_iff] at h0 h1
      refine .inr ⟨_, rfl, ?_, .inr hl⟩
      rw [b64Enc_one, group24_eq_iff.2 ⟨rfl, second, third⟩, s0, s1, h0, h1]

theorem b64DecGroups_b64Enc (b : List Byte) : b64DecGroups (b64Enc b) = .ok b := by
  induction b using b64Enc.induct with
  | case1 => rfl
  | case2 b0 => simp [b64Enc_one, b64DecGroups, b64DecGroup_one]
  | case3 b0 b1 => simp [b64Enc_two, b64DecGroups, b64DecGroup_two]
  | case4 b0 b1 b2 rest ih => simp [b64Enc_group, b64DecGroups, b64DecGroup_three, ih]

theorem b64DecGroups_cases : ∀ t : List Byte, b64DecGroups t = .error .invalidBase64 ∨ ∃ b, t = b64Enc b
  | [] => .inr ⟨[], rfl⟩
  | [_] | [_, _] | [_, _, _] => .inl rfl
  | c0 :: c1 :: c2 :: c3 :: rest => by
    rw [b64DecGroups]
    obtain hg | ⟨bs, hg, group, full | last⟩ := b64DecGroup_cases rest.isEmpty c0 c1 c2 c3
    · exact .inl (by rw [hg])
    · obtain hr | ⟨more, rfl⟩ := b64DecGroups_cases rest
      · exact .inl (by rw [hg, hr])
      · exact .inr ⟨bs ++ more, by rw [b64Enc_append full, group]; rfl⟩
    · exact .inr ⟨bs, by rw [group, List.isEmpty_iff.1 last]⟩

/-- Check (a) is one that every encoded text passes. -/
theorem b64Dec_b64Enc (b : List Byte) : b64Dec (b64Enc b) = .ok b := by
  rw [b64Dec, b64Enc_length, if_neg (by omega), b64DecGroups_b64Enc]

theorem b64Dec_cases (t : List Byte) : b64Dec t = .error .invalidBase64 ∨ ∃ b, t = b64Enc b := by
  rw [b64Dec]
  split_ifs
  · exact .inl rfl
  · exact b64DecGroups_cases t

theorem b64Dec_eq_ok_iff : b64Dec t = .ok b ↔ b64Enc b = t := by
  constructor
  · intro h
    obtain he | ⟨b', rfl⟩ := b64Dec_cases t
    · rw [he] at h
      cases h
    · rw [b64Dec_b64Enc] at h
      cases h
      rfl
  · rintro rfl
    exact b64Dec_b64Enc b

/-- InvalidBase64 is the only error of `b64dec`. -/
theorem eq_invalidBase64_of_b64Dec_eq_error {e : FaultCause} (h : b64Dec t = .error e) : e = .invalidBase64 := by
  obtain he | ⟨b, rfl⟩ := b64Dec_cases t
  · rw [he] at h
    cases h
    rfl
  · rw [b64Dec_b64Enc] at h
    cases h

/-- Settles O29: what `b64dec` accepts is the encoding of what it gives, and every other text is InvalidBase64. -/
theorem b64DecodeInvertsEncode : Obligations.B64DecodeInvertsEncode := by
  unfold Obligations.B64DecodeInvertsEncode
  exact ⟨b64Dec_b64Enc, fun t b => b64Dec_eq_ok_iff.1, fun t e => eq_invalidBase64_of_b64Dec_eq_error⟩

/-! ### B64E and B64D (R157, R159) -/

theorem exec_b64e_of_fits (h : s.fault = false) (hl : (b64Enc s.ibuf).length < 2 ^ 64) :
    exec .b64e s = .next (s.setObuf (b64Enc s.ibuf)) :=
  (ifReady_of_ready h _).trans (withOutput_of_fits hl _)

theorem exec_b64d_of_ok (h : s.fault = false) (hb : b64Dec s.ibuf = .ok b) (hl : b.length < 2 ^ 64) :
    exec .b64d s = .next (s.setObuf b) := by
  refine (ifReady_of_ready h _).trans ?_
  rw [hb, orRaise_ok, withOutput_of_fits hl]

theorem exec_b64d_of_error {e : FaultCause} (h : s.fault = false) (he : b64Dec s.ibuf = .error e) :
    exec .b64d s = .next (enterFault e (encode .b64d) s) := by
  refine (ifReady_of_ready h _).trans ?_
  rw [he, orRaise_error]

/-- Settles O30: B64E and B64D are one write of OBUF, and B64D's only fault is InvalidBase64; what B64D delivers is no
longer than IBUF. -/
theorem base64CommandsComplete : Obligations.Base64CommandsComplete := by
  unfold Obligations.Base64CommandsComplete
  refine ⟨rfl, rfl, fun s h hl => exec_b64e_of_fits h ?_, fun s b h hl hb => ?_, fun s e h he => ?_,
    fun s h => ⟨exec_of_fault nofun h, exec_of_fault nofun h⟩⟩
  · rwa [b64Enc_length]
  · have shorter : b.length < 2 ^ 64 := by
      rw [hb, b64Enc_length] at hl
      omega
    exact exec_b64d_of_ok h (b64Dec_eq_ok_iff.2 hb.symm) shorter
  · obtain rfl := eq_invalidBase64_of_b64Dec_eq_error he
    exact exec_b64d_of_error h he

end Sys2Proof.Machine
end

section
/-! ENCF and DECF (47_pipelines.md R170 to R174): an equation for each outcome of the two pipelines, the lengths that keep
their sizes within LEN_W, and what the two commands answer. -/

namespace Sys2Proof.Machine

variable {s : State} {tag : BitVec 2} {es : List Elem} {k : Block} {raw ct p b c d : List Byte} {r : FileResult}
  {e : FaultCause}

/-! ### Lengths (R172) -/

/-- What the chain delivers is as long as what it was given. -/
theorem length_of_ecb_eq_ok {f : Block → Block} (h : ecb f d = .ok c) : c.length = d.length := by
  by_cases hm : d.length % 16 = 0
  · rw [ecb_of_multiple f hm] at h
    cases h
    exact mapBlocks_length_of_multiple f hm
  · rw [ecb_of_ragged f hm] at h
    cases h

theorem length_le_of_unpad_eq_ok (h : unpad d = .ok b) : b.length ≤ d.length := by
  obtain ⟨p, -, -, rfl⟩ := unpad_eq_ok_iff.1 h
  simp

theorem length_le_of_b64Dec_eq_ok (h : b64Dec b = .ok raw) : raw.length ≤ b.length := by
  rw [← b64Dec_eq_ok_iff.1 h, b64Enc_length]
  omega

theorem pad_b64Enc_length (raw : List Byte) : (pad (b64Enc raw)).length = fileSize raw.length := by
  rw [pad_length, b64Enc_length, fileSize]

theorem le_fileSize (n : Nat) : n ≤ fileSize n := by
  unfold fileSize
  omega

/-- Padding leaves no ragged block, so the chain of ENCF always has a result. -/
theorem ecbEncrypt_pad (d : List Byte) (rk : RoundKeys) : ∃ c, ecbEncrypt (pad d) rk = .ok c :=
  ⟨_, ecb_of_multiple _ (by rw [pad_length]; omega)⟩

/-! ### The outcomes of `encrypt_file` (R170) -/

theorem encryptFile_of_key_error (hk : normalize tag es = .error e) (raw : List Byte) :
    encryptFile raw tag es = .error e := by
  rw [encryptFile, hk]

theorem encryptFile_of_ok (hk : normalize tag es = .ok k)
    (hc : ecbEncrypt (pad (b64Enc raw)) (expand k) = .ok c) : encryptFile raw tag es = .ok ⟨c, k, expand k⟩ := by
  simp only [encryptFile, hk, hc]

/-! ### The outcomes of `decrypt_file`, its checks in order (R173) -/

theorem decryptFile_of_key_error (hk : normalize tag es = .error e) (ct : List Byte) :
    decryptFile ct tag es = .error e := by
  rw [decryptFile, hk]

theorem decryptFile_of_ecb_error (hk : normalize tag es = .ok k) (hp : ecbDecrypt ct (expand k) = .error e) :
    decryptFile ct tag es = .error e := by
  simp only [decryptFile, hk, hp]

theorem decryptFile_of_unpad_error (hk : normalize tag es = .ok k) (hp : ecbDecrypt ct (expand k) = .ok p)
    (hb : unpad p = .error e) : decryptFile ct tag es = .error .decryptionFailed := by
  simp only [decryptFile, hk, hp, hb, asDecryptionFailed]

theorem decryptFile_of_b64Dec_error (hk : normalize tag es = .ok k) (hp : ecbDecrypt ct (expand k) = .ok p)
    (hb : unpad p = .ok b) (hr : b64Dec b = .error e) : decryptFile ct tag es = .error .decryptionFailed := by
  simp only [decryptFile, hk, hp, hb, hr, asDecryptionFailed]

theorem decryptFile_of_ok (hk : normalize tag es = .ok k) (hp : ecbDecrypt ct (expand k) = .ok p)
    (hb : unpad p = .ok b) (hr : b64Dec b = .ok raw) : decryptFile ct tag es = .ok ⟨raw, k, expand k⟩ := by
  simp only [decryptFile, hk, hp, hb, hr, asDecryptionFailed]

/-! ### ENCF and DECF (R171, R174) -/

theorem exec_encf_of_ok (h : s.fault = false) (hr : encryptFile s.ibuf s.ktag s.keyin = .ok r)
    (hi : s.ibuf.length < 2 ^ 64) (hp : r.payload.length < 2 ^ 64) : exec .encf s =
      .next (((((s.setObuf r.payload).setSizes s.ibuf.length r.payload.length).setKey r.key).setRk r.roundKeys).setSt
        zeroBlock) := by
  refine (ifReady_of_ready h _).trans ?_
  rw [hr, orRaise_ok, installFile_of_fits hi hp hp]

theorem exec_encf_of_error (h : s.fault = false) (he : encryptFile s.ibuf s.ktag s.keyin = .error e) :
    exec .encf s = .next (enterFault e (encode .encf) s) := by
  refine (ifReady_of_ready h _).trans ?_
  rw [he, orRaise_error]

theorem exec_decf_of_ok (h : s.fault = false) (hr : decryptFile s.ibuf s.ktag s.keyin = .ok r)
    (hi : s.ibuf.length < 2 ^ 64) (hp : r.payload.length < 2 ^ 64) : exec .decf s =
      .next (((((s.setObuf r.payload).setSizes r.payload.length s.ibuf.length).setKey r.key).setRk r.roundKeys).setSt
        zeroBlock) := by
  refine (ifReady_of_ready h _).trans ?_
  rw [hr, orRaise_ok, installFile_of_fits hp hi hp]

theorem exec_decf_of_error (h : s.fault = false) (he : decryptFile s.ibuf s.ktag s.keyin = .error e) :
    exec .decf s = .next (enterFault e (encode .decf) s) := by
  refine (ifReady_of_ready h _).trans ?_
  rw [he, orRaise_error]

/-- Settles O32: padded text is never ragged, so only the key can raise; the ciphertext has `fileSize` bytes, which bounds
both sizes. -/
theorem encfEncryptsTheFile : Obligations.EncfEncryptsTheFile := by
  unfold Obligations.EncfEncryptsTheFile
  refine ⟨rfl, fun s k h hk hl => ?_, fun s e h he => exec_encf_of_error h (encryptFile_of_key_error he _),
    fun s h => exec_of_fault nofun h⟩
  obtain ⟨c, hc⟩ := ecbEncrypt_pad (b64Enc s.ibuf) (expand k)
  have size : c.length = fileSize s.ibuf.length := (length_of_ecb_eq_ok hc).trans (pad_b64Enc_length s.ibuf)
  exact ⟨c, hc, exec_encf_of_ok h (encryptFile_of_ok hk hc) ((le_fileSize _).trans_lt hl) (size.trans_lt hl)⟩

/-- Settles O34: each check that fails is one case of `decrypt_file`; what DECF delivers is no longer than IBUF, since no
stage adds bytes. -/
theorem decfDecryptsTheFile : Obligations.DecfDecryptsTheFile := by
  unfold Obligations.DecfDecryptsTheFile
  refine ⟨rfl, fun s k p b raw h hl hk hp hb hr => ?_,
    fun s e h he => exec_decf_of_error h (decryptFile_of_key_error he _),
    fun s k h hk ragged => exec_decf_of_error h (decryptFile_of_ecb_error hk (ecb_of_ragged _ ragged)),
    fun s k p h hk hp failed => exec_decf_of_error h ?_, fun s h => exec_of_fault nofun h⟩
  · have shorter : raw.length ≤ s.ibuf.length :=
      calc raw.length ≤ b.length := length_le_of_b64Dec_eq_ok hr
        _ ≤ p.length := length_le_of_unpad_eq_ok hb
        _ = s.ibuf.length := length_of_ecb_eq_ok hp
    exact exec_decf_of_ok h (decryptFile_of_ok hk hp hb hr) hl (shorter.trans_lt hl)
  · obtain ⟨e, hb⟩ | ⟨b, e, hb, hr⟩ := failed
    · exact decryptFile_of_unpad_error hk hp hb
    · exact decryptFile_of_b64Dec_error hk hp hb hr

end Sys2Proof.Machine
end

section
/-! `pad` and `unpad` undo each other (44_pkcs7_padder.md R134), and what a pipeline that succeeds says of its lengths
(47_pipelines.md R172). -/

namespace Sys2Proof.Machine

variable {tag : BitVec 2} {es : List Elem} {raw ct c d b : List Byte} {r : FileResult} {e : FaultCause}

/-! ### `pad` and `unpad` (R134) -/

theorem unpad_pad (d : List Byte) : unpad (pad d) = .ok d := unpad_append_padTail (padLength_pos d) (padLength_le d) d

/-- Only one tail of 1 to 16 bytes makes the length a multiple of 16, and it is the one that `pad` appends. -/
theorem pad_of_unpad_eq_ok (h : unpad d = .ok b) (hm : d.length % 16 = 0) : pad b = d := by
  obtain ⟨p, hp, hp', rfl⟩ := unpad_eq_ok_iff.1 h
  have tail : padLength b = p := by
    rw [List.length_append, padTail_length] at hm
    unfold padLength
    omega
  rw [pad_eq, tail]

theorem pad_injective : Function.Injective pad := fun a b h =>
  Except.ok.inj ((unpad_pad a).symm.trans ((congrArg unpad h).trans (unpad_pad b)))

/-- Settles O21: `unpad` takes off the tail that `pad` appends, so `pad` has a left inverse; on a multiple of 16 the
tail that `unpad` finds is that tail. -/
theorem padAndUnpadAreInverse : Obligations.PadAndUnpadAreInverse := by
  unfold Obligations.PadAndUnpadAreInverse
  exact ⟨unpad_pad, fun d r => pad_of_unpad_eq_ok, fun a b h => pad_injective h⟩

/-! ### The chain and the pipelines, read backwards from their outcome (R144, R170, R173) -/

theorem length_multiple_of_ecb_eq_ok {f : Block → Block} (h : ecb f d = .ok c) : d.length % 16 = 0 := by
  by_contra hm
  rw [ecb_of_ragged f hm] at h
  cases h

theorem ecb_eq_error {f : Block → Block} (h : ecb f d = .error e) : d.length % 16 ≠ 0 ∧ e = .invalidBlockSize := by
  by_cases hm : d.length % 16 = 0
  · rw [ecb_of_multiple f hm] at h
    cases h
  · rw [ecb_of_ragged f hm] at h
    cases h
    exact ⟨hm, rfl⟩

theorem encryptFile_eq_ok (h : encryptFile raw tag es = .ok r) : ∃ k c, normalize tag es = .ok k ∧
    ecbEncrypt (pad (b64Enc raw)) (expand k) = .ok c ∧ r = ⟨c, k, expand k⟩ := by
  cases hk : normalize tag es with
  | error e =>
    rw [encryptFile_of_key_error hk] at h
    cases h
  | ok k =>
    obtain ⟨c, hc⟩ := ecbEncrypt_pad (b64Enc raw) (expand k)
    rw [encryptFile_of_ok hk hc] at h
    cases h
    exact ⟨k, c, rfl, hc, rfl⟩

/-- The key alone can make ENCF raise. -/
theorem encryptFile_eq_error (h : encryptFile raw tag es = .error e) : normalize tag es = .error e := by
  cases hk : normalize tag es with
  | error e' =>
    rw [encryptFile_of_key_error hk] at h
    cases h
    rfl
  | ok k =>
    obtain ⟨c, hc⟩ := ecbEncrypt_pad (b64Enc raw) (expand k)
    rw [encryptFile_of_ok hk hc] at h
    cases h

/-- The four stages of DECF in order: the fault is the key's, or the chain's, or, with a good key and no ragged block,
DecryptionFailed; otherwise every stage succeeds. -/
theorem decryptFile_cases (ct : List Byte) (tag : BitVec 2) (es : List Elem) :
    (∃ e, normalize tag es = .error e ∧ decryptFile ct tag es = .error e) ∨
    (ct.length % 16 ≠ 0 ∧ decryptFile ct tag es = .error .invalidBlockSize) ∨
    (ct.length % 16 = 0 ∧ (∃ k, normalize tag es = .ok k) ∧ decryptFile ct tag es = .error .decryptionFailed) ∨
    ∃ k p b raw, normalize tag es = .ok k ∧ ecbDecrypt ct (expand k) = .ok p ∧ unpad p = .ok b ∧ b64Dec b = .ok raw ∧
      decryptFile ct tag es = .ok ⟨raw, k, expand k⟩ := by
  cases hk : normalize tag es with
  | error e => exact .inl ⟨e, rfl, decryptFile_of_key_error hk ct⟩
  | ok k =>
    cases hp : ecbDecrypt ct (expand k) with
    | error e =>
      obtain ⟨ragged, rfl⟩ := ecb_eq_error hp
      exact .inr (.inl ⟨ragged, decryptFile_of_ecb_error hk hp⟩)
    | ok p =>
      have whole : ct.length % 16 = 0 := length_multiple_of_ecb_eq_ok hp
      cases hb : unpad p with
      | error e => exact .inr (.inr (.inl ⟨whole, ⟨k, rfl⟩, decryptFile_of_unpad_error hk hp hb⟩))
      | ok b =>
        cases hr : b64Dec b with
        | error e => exact .inr (.inr (.inl ⟨whole, ⟨k, rfl⟩, decryptFile_of_b64Dec_error hk hp hb hr⟩))
        | ok raw => exact .inr (.inr (.inr ⟨k, p, b, raw, rfl, hp, hb, hr, decryptFile_of_ok hk hp hb hr⟩))

/-! ### The sizes of a file (R172) -/

theorem length_of_encryptFile_eq_ok (h : encryptFile raw tag es = .ok r) : r.payload.length = fileSize raw.length := by
  obtain ⟨k, c, -, hc, rfl⟩ := encryptFile_eq_ok h
  exact (length_of_ecb_eq_ok hc).trans (pad_b64Enc_length raw)

/-- What DECF accepts is as long as the ciphertext of what it delivers: padding and encoding give the text back. -/
theorem length_of_decryptFile_eq_ok (h : decryptFile ct tag es = .ok r) : ct.length = fileSize r.payload.length := by
  obtain ⟨_, _, h'⟩ | ⟨_, h'⟩ | ⟨_, _, h'⟩ | ⟨k, p, b, raw, -, hp, hb, hr, h'⟩ := decryptFile_cases ct tag es <;>
    rw [h'] at h <;> cases h
  have chain : p.length = ct.length := length_of_ecb_eq_ok hp
  have whole : p.length % 16 = 0 := by rw [chain, length_multiple_of_ecb_eq_ok hp]
  rw [← chain, ← pad_of_unpad_eq_ok hb whole, ← b64Dec_eq_ok_iff.1 hr, pad_b64Enc_length]

end Sys2Proof.Machine
end

section
/-! The faults of each command (60_exceptions.md R191 to R193): where a command's function raises, the command enters
that fault, and the fault is one of its row of R191. -/

namespace Sys2Proof.Machine

variable {s t : State} {i : Instr} {e : FaultCause}

theorem mem_keyFaults_of_normalize_eq_error {tag : BitVec 2} {es : List Elem} (h : normalize tag es = .error e) :
    e ∈ [FaultCause.invalidKeyFormat, .invalidKeyLength, .invalidKeyEncoding] := by
  unfold normalize at h
  split_ifs at h <;> cases h <;> decide

/-- R191, row by row. -/
theorem mem_mayRaise_of_raises (hi : i.wellFormed = true) (h : Raises i s e) : e ∈ mayRaise i := by
  cases i with
  | addrk rnd =>
    have small : rnd.toNat < 11 := Nat.lt_succ_of_le (of_decide_eq_true hi)
    rw [Raises, roundIndex_of_lt small] at h
    exact absurd h.1 nofun
  | keyld => exact mem_keyFaults_of_normalize_eq_error h
  | unpad => exact List.mem_singleton.2 (eq_invalidPadding_of_unpad_eq_error h)
  | ecbe => exact List.mem_singleton.2 (ecb_eq_error h).2
  | ecbd => exact List.mem_singleton.2 (ecb_eq_error h).2
  | b64d => exact List.mem_singleton.2 (eq_invalidBase64_of_b64Dec_eq_error h)
  | encf => exact mem_keyFaults_of_normalize_eq_error (encryptFile_eq_error h)
  | decf =>
    obtain ⟨e', hk, h'⟩ | ⟨-, h'⟩ | ⟨-, -, h'⟩ | ⟨_, _, _, _, -, -, -, -, h'⟩ := decryptFile_cases s.ibuf s.ktag s.keyin
    all_goals
      rw [Raises, h'] at h
      cases h
    · exact List.mem_append_left [.invalidBlockSize, .decryptionFailed] (mem_keyFaults_of_normalize_eq_error hk)
    · decide
    · decide
  | _ => exact h.elim

/-- A command enters the fault that its function raises. -/
theorem exec_of_raises (hf : s.fault = false) (h : Raises i s e) : exec i s = .next (enterFault e (encode i) s) := by
  cases i with
  | addrk rnd =>
    obtain ⟨hr, rfl⟩ := h
    refine (ifReady_of_ready hf _).trans ?_
    rw [hr]
    rfl
  | keyld => exact exec_keyld_of_error hf h
  | unpad => exact exec_unpad_of_error hf h
  | ecbe => exact exec_ecbe_of_error hf h
  | ecbd => exact exec_ecbd_of_error hf h
  | b64d => exact exec_b64d_of_error hf h
  | encf => exact exec_encf_of_error hf h
  | decf => exact exec_decf_of_error hf h
  | _ => exact h.elim

end Sys2Proof.Machine
end

section
/-! What a command that completes writes (10_state.md R11 to R23): one constructor for each set of registers and buffers
that is written together. -/

namespace Sys2Proof.Machine

variable {s t : State} {i : Instr} {e : FaultCause}

/-- The writes of a command other than RST that completes in `s`, with the bounds of R6 on what it writes. -/
inductive Effect (s : State) : Instr → State → Prop
  | product (v : Byte) : Effect s .gfmul (s.setGfp v)
  | block {i : Instr} (hi : i ∈ [Instr.subb, .shrow, .mixc, .isubb, .ishrow, .imixc, .encb, .decb] ∨ ∃ r, i = .addrk r)
      (b : Block) : Effect s i (s.setSt b)
  | schedule (ks : RoundKeys) : Effect s .keyexp (s.setRk ks)
  | key (k : Block) : Effect s .keyld (s.setKey k)
  | output {i : Instr} (hi : i ∈ [Instr.pad, .unpad, .b64e, .b64d]) {out : List Byte} (hl : out.length < 2 ^ 64) :
      Effect s i (s.setObuf out)
  | chain {i : Instr} (hi : i ∈ [Instr.ecbe, .ecbd]) {out : List Byte} (hl : out.length < 2 ^ 64) :
      Effect s i ((s.setObuf out).setSt zeroBlock)
  | file {i : Instr} (hi : i ∈ [Instr.encf, .decf]) {r : FileResult} (hl : r.payload.length < 2 ^ 64) {o e : Nat}
      (ho : o < 2 ^ 64) (he : e < 2 ^ 64) (hs : e = fileSize o) :
      Effect s i (((((s.setObuf r.payload).setSizes o e).setKey r.key).setRk r.roundKeys).setSt zeroBlock)
  | handOver : Effect s .otoi ((s.setIbuf s.obuf).setObuf [])

theorem Completes.effect (hi : i ≠ .rst) (h : Completes i s t) : Effect s i t := by
  cases i with
  | rst => exact absurd rfl hi
  | gfmul => subst h; exact .product _
  | keyexp => subst h; exact .schedule _
  | otoi => subst h; exact .handOver
  | keyld => obtain ⟨k, -, rfl⟩ := h; exact .key k
  | addrk rnd => obtain ⟨r, -, rfl⟩ := h; exact .block (.inr ⟨rnd, rfl⟩) _
  | pad => obtain ⟨hl, rfl⟩ := h; exact .output (by decide) hl
  | b64e => obtain ⟨hl, rfl⟩ := h; exact .output (by decide) hl
  | unpad => obtain ⟨out, -, hl, rfl⟩ := h; exact .output (by decide) hl
  | b64d => obtain ⟨out, -, hl, rfl⟩ := h; exact .output (by decide) hl
  | ecbe => obtain ⟨out, -, hl, rfl⟩ := h; exact .chain (by decide) hl
  | ecbd => obtain ⟨out, -, hl, rfl⟩ := h; exact .chain (by decide) hl
  | encf =>
    obtain ⟨r, hr, ho, hl, rfl⟩ := h
    exact .file (by decide) hl ho hl (length_of_encryptFile_eq_ok hr)
  | decf =>
    obtain ⟨r, hr, hl, he, rfl⟩ := h
    exact .file (by decide) hl hl he (length_of_decryptFile_eq_ok hr)
  | _ => subst h; exact .block (.inl (by decide)) _

/-- A command that completes leaves the fault registers alone. -/
theorem Effect.fault_registers (h : Effect s i t) : t.fault = s.fault ∧ t.err = s.err ∧ t.fcmd = s.fcmd := by
  cases h <;> exact ⟨rfl, rfl, rfl⟩

theorem Effect.memory_wf (h : Effect s i t) (wf : Memory.wf s = true) : Memory.wf t = true := by
  cases h with
  | output _ hl => exact Memory.wf_setObuf wf hl
  | chain _ hl => exact (Memory.wf_setObuf wf hl :)
  | file _ hl => exact (Memory.wf_setObuf wf hl :)
  | handOver => exact Memory.wf_handOver wf
  | _ => exact wf

/-- A command that ran from a fault-free state: it reset the core, or completed, or raised. -/
theorem exec_next_of_ready (hf : s.fault = false) (h : exec i s = .next t) :
    (i = .rst ∧ t = resetCore s) ∨ (i ≠ .rst ∧ Effect s i t) ∨ ∃ e, Raises i s e ∧ t = enterFault e (encode i) s := by
  obtain ⟨faulty, -, -⟩ | ⟨-, hc⟩ | ⟨-, hr⟩ := exec_next h
  · rw [hf] at faulty
    cases faulty
  · by_cases hi : i = .rst
    · subst hi; exact .inl ⟨rfl, hc⟩
    · exact .inr (.inl ⟨hi, hc.effect hi⟩)
  · exact .inr (.inr hr)

/-- FAULT is set only by the fault that the command's function raises. -/
theorem raises_of_exec_fault (hf : s.fault = false) (h : exec i s = .next t) (ht : t.fault = true) :
    ∃ e, Raises i s e ∧ t = enterFault e (encode i) s := by
  obtain ⟨-, rfl⟩ | ⟨-, he⟩ | hr := exec_next_of_ready hf h
  · cases ht
  · rw [he.fault_registers.1, hf] at ht
    cases ht
  · exact hr

end Sys2Proof.Machine
end

section
/-! The invariants of a core that the host drives (10_state.md section 7, 47_pipelines.md R172): what a move of the host
can do to the registers that only commands write, said once, and the two invariants derived from it. -/

namespace Sys2Proof.Machine

variable {s t : State} {c : CmdWord} {m : HostMove} {i : Instr} {e : FaultCause}

/-! ### What a step can do -/

/-- FAULT, ERR, FCMD, OBUF and the sizes, which no host move but Issue and HardReset writes, are the same. -/
structure SameResults (s t : State) : Prop where
  fault : t.fault = s.fault
  err : t.err = s.err
  fcmd : t.fcmd = s.fcmd
  obuf : t.obuf = s.obuf
  origSize : t.origSize = s.origSize
  encSize : t.encSize = s.encSize

/-- `t` is `s` after a move that leaves the results alone and keeps the form of the memories. -/
def KeepsResults (s t : State) : Prop := SameResults s t ∧ (Memory.wf s = true → Memory.wf t = true)

theorem keepsResults_refl (s : State) : KeepsResults s s := ⟨⟨rfl, rfl, rfl, rfl, rfl, rfl⟩, id⟩

theorem keepsResults_setHost (s : State) (h : HostAgent) : KeepsResults s (s.setHost h) :=
  ⟨⟨rfl, rfl, rfl, rfl, rfl, rfl⟩, id⟩

/-- The four ways a move of the host can change the core. -/
inductive Moved (s : State) : State → Prop
  | keep {t : State} (h : KeepsResults s t) : Moved s t
  | reset : Moved s (resetCore s)
  | complete {i : Instr} {t : State} (hf : s.fault = false) (he : Effect s i t) : Moved s t
  | fault {e : FaultCause} {c : CmdWord} (he : e ∈ wordMayRaise c) : Moved s (enterFault e c s)

theorem exec_moved (hi : i.wellFormed = true) (h : exec i s = .next t) : Moved s t := by
  obtain ⟨-, -, rfl⟩ | ⟨ready, hc⟩ | ⟨-, e, he, rfl⟩ := exec_next h
  · exact .keep (keepsResults_refl _)
  · by_cases hr : i = .rst
    · subst hr
      cases hc
      exact .reset
    · exact .complete (ready.resolve_right hr) (hc.effect hr)
  · refine .fault ?_
    rw [wordMayRaise, decode_encode hi]
    exact mem_mayRaise_of_raises hi he

theorem moveIssue_moved (h : moveIssue c s = .next t) : Moved s t := by
  cases hd : decode c with
  | ok i =>
    rw [moveIssue_of_ok hd] at h
    exact exec_moved (decode_eq_ok_iff.1 hd).1 h
  | error x =>
    rw [moveIssue_of_error hd] at h
    obtain ⟨-, rfl⟩ | ⟨-, ht⟩ := ifReady_next h
    · exact .keep (keepsResults_refl _)
    · cases ht
      refine .fault ?_
      rw [wordMayRaise, hd]
      exact List.mem_singleton_self _

/-- The one write to a register that is more than a store of GFA or GFB is Issue (R19). -/
theorem moveWriteReg_moved {n v : Nat} (h : moveWriteReg n v s = .next t) : Moved s t := by
  unfold moveWriteReg at h
  split at h
  case h_1 =>
    split_ifs at h
    exact moveIssue_moved h
  case h_2 =>
    split_ifs at h
    cases h
    exact .keep ⟨⟨rfl, rfl, rfl, rfl, rfl, rfl⟩, id⟩
  case h_3 =>
    split_ifs at h
    cases h
    exact .keep ⟨⟨rfl, rfl, rfl, rfl, rfl, rfl⟩, id⟩
  all_goals
    cases h
    exact .keep (keepsResults_refl _)

theorem hostMove_moved (h : hostMove m s = .next t) : Moved s t := by
  cases m with
  | loadIbuf bs =>
    simp only [hostMove, moveLoadIbuf] at h
    split_ifs at h with hl
    cases h
    exact .keep ⟨⟨rfl, rfl, rfl, rfl, rfl, rfl⟩, fun wf => Memory.wf_setIbuf wf ((fitsBuffer_iff _).1 hl)⟩
  | loadKey tag es =>
    simp only [hostMove, moveLoadKey] at h
    split_ifs at h with hl legal
    cases h
    exact .keep ⟨⟨rfl, rfl, rfl, rfl, rfl, rfl⟩, fun wf => Memory.wf_setKeyInput wf ((fitsKeyin_iff _).1 hl) legal⟩
  | writeData w i v => cases w <;> cases h <;> exact .keep ⟨⟨rfl, rfl, rfl, rfl, rfl, rfl⟩, id⟩
  | writeReg n v => exact moveWriteReg_moved h
  | read x =>
    cases h
    exact .keep (keepsResults_setHost s _)
  | issue c => exact moveIssue_moved h
  | hardReset =>
    cases h
    exact .reset

/-- R50, R52, R197: a step changes nothing, or takes a move off the host's script and makes it. -/
theorem step_next (h : step s = .next t) : t = s ∨ ∃ a : HostAgent, Moved (s.setHost a) t := by
  unfold step at h
  split at h
  case h_1 => exact .inl (Host.Outcome.next.inj h).symm
  case h_2 m rest _ => exact .inr ⟨⟨rest, s.host.got⟩, hostMove_moved h⟩

/-! ### The invariant `Inv` -/

theorem inv_of_no_fault (hf : s.fault = false) (he : s.err = none) (hc : s.fcmd = 0#16) (wf : Memory.wf s = true) :
    Inv s where
  fault_iff_err := by simp [hf, he]
  fcmd_zero _ := hc
  fault_clears h := absurd h (by simp [hf])
  err_of_fcmd e h := absurd h (by simp [he])
  memory := wf

theorem inv_enterFault (he : e ∈ wordMayRaise c) (wf : Memory.wf s = true) : Inv (enterFault e c s) where
  fault_iff_err := by simp
  fcmd_zero := nofun
  fault_clears _ := ⟨rfl, rfl, rfl⟩
  err_of_fcmd e' h := by
    cases h
    exact he
  memory := Memory.wf_enterFault e c wf

theorem Inv.err_eq_none (h : Inv s) (hf : s.fault = false) : s.err = none := by
  by_contra he
  rw [h.fault_iff_err.2 he] at hf
  cases hf

theorem Inv.of_keepsResults (hk : KeepsResults s t) (h : Inv s) : Inv t := by
  obtain ⟨⟨fault, err, fcmd, obuf, origSize, encSize⟩, wf⟩ := hk
  exact {
    fault_iff_err := by rw [fault, err, h.fault_iff_err]
    fcmd_zero := by simpa only [fault, fcmd] using h.fcmd_zero
    fault_clears := by simpa only [fault, obuf, origSize, encSize] using h.fault_clears
    err_of_fcmd := by simpa only [err, fcmd] using h.err_of_fcmd
    memory := wf h.memory }

theorem Moved.inv (h : Moved s t) (hs : Inv s) : Inv t := by
  cases h with
  | keep hk => exact hs.of_keepsResults hk
  | reset => exact inv_of_no_fault rfl rfl rfl Memory.wf_resetCore
  | complete hf he =>
    obtain ⟨fault, err, fcmd⟩ := he.fault_registers
    exact inv_of_no_fault (fault.trans hf) (err.trans (hs.err_eq_none hf)) (fcmd.trans (hs.fcmd_zero hf))
      (he.memory_wf hs.memory)
  | fault he => exact inv_enterFault he hs.memory

/-- Settles O45: a move that is no command leaves the results alone, reset and fault entry set them as the invariant
asks, and a command that completes keeps FAULT = 0 and the form of the memories. -/
theorem stepKeepsTheInvariant : Obligations.StepKeepsTheInvariant := by
  unfold Obligations.StepKeepsTheInvariant
  intro s t hs h
  obtain rfl | ⟨a, hm⟩ := step_next h
  · exact hs
  · exact hm.inv (hs.of_keepsResults (keepsResults_setHost s a))

/-- Settles O44: nothing is in the fault registers or in the memories. -/
theorem resetMeetsTheInvariant : Obligations.ResetMeetsTheInvariant := by
  unfold Obligations.ResetMeetsTheInvariant
  exact inv_of_no_fault rfl rfl rfl Memory.wf_reset

/-! ### The law of the two size registers -/

theorem SizeLaw.of_same (ho : t.origSize = s.origSize) (he : t.encSize = s.encSize) (h : SizeLaw s) : SizeLaw t := by
  unfold SizeLaw at *
  rwa [ho, he]

theorem sizeLaw_of_fileSize {o : Nat} (ho : o < 2 ^ 64) (he : fileSize o < 2 ^ 64)
    (hto : t.origSize = BitVec.ofNat 64 o) (hte : t.encSize = BitVec.ofNat 64 (fileSize o)) : SizeLaw t := by
  right
  rw [hto, hte, BitVec.toNat_ofNat, BitVec.toNat_ofNat, Nat.mod_eq_of_lt ho, Nat.mod_eq_of_lt he]

/-- A command that completes leaves the sizes alone, but for the pipelines, which write a length and its `fileSize`. -/
theorem Effect.sizeLaw (h : Effect s i t) (hs : SizeLaw s) : SizeLaw t := by
  cases h with
  | file _ _ ho he hsize =>
    subst hsize
    exact sizeLaw_of_fileSize ho he rfl rfl
  | _ => exact hs.of_same rfl rfl

theorem Moved.sizeLaw (h : Moved s t) (hs : SizeLaw s) : SizeLaw t := by
  cases h with
  | keep hk => exact hs.of_same hk.1.origSize hk.1.encSize
  | reset => exact .inl ⟨rfl, rfl⟩
  | complete _ he => exact he.sizeLaw hs
  | fault _ => exact .inl ⟨rfl, rfl⟩

/-- Settles O46: reset and fault entry clear both sizes, and only the two pipelines write them otherwise. -/
theorem stepKeepsTheSizeLaw : Obligations.StepKeepsTheSizeLaw := by
  unfold Obligations.StepKeepsTheSizeLaw
  intro s t hs h
  obtain rfl | ⟨a, hm⟩ := step_next h
  · exact hs
  · exact hm.sizeLaw (hs.of_same rfl rfl)

/-- Settles O47: encoding has `decode` as its left inverse on the well-formed commands. -/
theorem decodeOfEncodeIsTheCommand : Obligations.DecodeOfEncodeIsTheCommand := by
  unfold Obligations.DecodeOfEncodeIsTheCommand
  exact fun i => decode_encode

end Sys2Proof.Machine
end

section
/-! Faults are precise (60_exceptions.md R191 to R193, R199), and every command answers (R198, R232). -/

namespace Sys2Proof.Machine

variable {s t : State} {i : Instr} {e : FaultCause}

/-- Settles O40: FAULT is set by the command's own raise alone, the raise is fault entry, and fault entry is the writes
that R193 lists. -/
theorem faultsArePrecise : Obligations.FaultsArePrecise := by
  unfold Obligations.FaultsArePrecise
  refine ⟨fun i s t hf h ht => ?_, fun i s e hf he => exec_of_raises hf he, fun c s x hf hx => ?_⟩
  · obtain ⟨e, he, rfl⟩ := raises_of_exec_fault hf h ht
    exact ⟨e, he, fun hi => mem_mayRaise_of_raises hi he, rfl⟩
  · rw [moveIssue_of_error hx, ifReady_of_ready hf]
    rfl

/-! ### A state for each "yes" of R191 -/

theorem exists_normalize_eq_error (h : e ∈ [FaultCause.invalidKeyFormat, .invalidKeyLength, .invalidKeyEncoding]) :
    ∃ tag es, normalize tag es = .error e := by
  simp only [List.mem_cons, List.not_mem_nil, or_false] at h
  obtain rfl | rfl | rfl := h
  · exact ⟨tagStr, [], by decide⟩
  · exact ⟨tagBin, [], by decide⟩
  · exact ⟨tagStr, List.replicate 32 0#21, by decide⟩

/-- With sixteen key bytes DECF goes on to the chain; a single byte is a ragged block, and no bytes at all have no
padding to take off. -/
theorem exists_decryptFile_eq_error (h : e ∈ mayRaise .decf) : ∃ ct tag es, decryptFile ct tag es = .error e := by
  have key : normalize tagBin (List.replicate 16 0#21) = .ok (elemBytes (List.replicate 16 0#21)) :=
    normalize_bin_of_length (by simp)
  have row : e ∈ [FaultCause.invalidKeyFormat, .invalidKeyLength, .invalidKeyEncoding] ++
      [.invalidBlockSize, .decryptionFailed] := h
  obtain hk | hd := List.mem_append.1 row
  · obtain ⟨tag, es, hk⟩ := exists_normalize_eq_error hk
    exact ⟨[], tag, es, decryptFile_of_key_error hk []⟩
  · simp only [List.mem_cons, List.not_mem_nil, or_false] at hd
    obtain rfl | rfl := hd
    · exact ⟨[0#8], _, _, decryptFile_of_ecb_error key (ecb_of_ragged _ (by decide))⟩
    · exact ⟨[], _, _, decryptFile_of_unpad_error key (ecb_of_multiple _ rfl) rfl⟩

theorem exists_raises (h : e ∈ mayRaise i) : ∃ s : State, s.fault = false ∧ Raises i s e := by
  cases i with
  | keyld =>
    obtain ⟨tag, es, hk⟩ := exists_normalize_eq_error h
    exact ⟨State.reset.setKeyInput tag es, rfl, hk⟩
  | encf =>
    obtain ⟨tag, es, hk⟩ := exists_normalize_eq_error h
    exact ⟨State.reset.setKeyInput tag es, rfl, encryptFile_of_key_error hk []⟩
  | decf =>
    obtain ⟨ct, tag, es, hd⟩ := exists_decryptFile_eq_error h
    exact ⟨(State.reset.setIbuf ct).setKeyInput tag es, rfl, hd⟩
  | unpad =>
    obtain rfl := List.mem_singleton.1 h
    exact ⟨State.reset, rfl, rfl⟩
  | ecbe =>
    obtain rfl := List.mem_singleton.1 h
    exact ⟨State.reset.setIbuf [0#8], rfl, ecb_of_ragged _ (by decide)⟩
  | ecbd =>
    obtain rfl := List.mem_singleton.1 h
    exact ⟨State.reset.setIbuf [0#8], rfl, ecb_of_ragged _ (by decide)⟩
  | b64d =>
    obtain rfl := List.mem_singleton.1 h
    exact ⟨State.reset.setIbuf [0#8], rfl, rfl⟩
  | _ => exact absurd h List.not_mem_nil

/-- Settles O42: what sets ERR is a raise of the command's function, which R191 lists; and for each "yes" there is a
state in which the function raises. -/
theorem raisableFaultsAreTheTable : Obligations.RaisableFaultsAreTheTable := by
  unfold Obligations.RaisableFaultsAreTheTable
  refine ⟨fun i e hi => ⟨?_, fun h => ?_⟩, fun c x s t hx hf h => ?_⟩
  · rintro ⟨s, t, hf, h, ht, herr⟩
    obtain ⟨e', he', rfl⟩ := raises_of_exec_fault hf h ht
    cases herr
    exact mem_mayRaise_of_raises hi he'
  · obtain ⟨s, hf, he⟩ := exists_raises h
    exact ⟨s, _, hf, exec_of_raises hf he, rfl, rfl⟩
  · rw [moveIssue_of_error hx, ifReady_of_ready hf] at h
    cases h
    rfl

/-! ### DECF does not tell which sub-step failed (R199) -/

theorem eq_decryptionFailed_imp {ct : List Byte} {tag : BitVec 2} {es : List Elem}
    (h : decryptFile ct tag es = .error .decryptionFailed) : ct.length % 16 = 0 ∧ ∃ k, normalize tag es = .ok k := by
  obtain ⟨e, hk, h'⟩ | ⟨-, h'⟩ | ⟨whole, key, -⟩ | ⟨_, _, _, _, -, -, -, -, h'⟩ := decryptFile_cases ct tag es
  · rw [h'] at h
    cases h
    exact absurd (mem_keyFaults_of_normalize_eq_error hk) (by decide)
  · rw [h'] at h
    cases h
  · exact ⟨whole, key⟩
  · rw [h'] at h
    cases h

/-- Settles O35: codes 5 and 6 are not in DECF's row of R191; and both sub-steps end in the same fault entry, which does
not read IBUF. -/
theorem decfTellsNoSubStep : Obligations.DecfTellsNoSubStep := by
  unfold Obligations.DecfTellsNoSubStep
  refine ⟨fun s t hf h ht => ?_, ?_, fun s t e hf he h => ?_, fun s t e hf he h => ?_⟩
  · obtain ⟨e, he, rfl⟩ := raises_of_exec_fault hf h ht
    have row : e ∈ mayRaise .decf := mem_mayRaise_of_raises rfl he
    refine ⟨rfl, ?_, ?_, fun hd => ?_⟩
    · rintro ⟨⟩
      exact absurd row (by decide)
    · rintro ⟨⟩
      exact absurd row (by decide)
    · cases hd
      exact eq_decryptionFailed_imp he
  · intro s k c1 c2 p1 p2 b e1 e2 t1 t2 hf hk hp1 hb1 hp2 hb2 hr2 h1 h2
    have ready (c : List Byte) : (s.setIbuf c).fault = false := hf
    have first := exec_decf_of_error (ready c1) (decryptFile_of_unpad_error hk hp1 hb1)
    have second := exec_decf_of_error (ready c2) (decryptFile_of_b64Dec_error hk hp2 hb2 hr2)
    cases h1.symm.trans first
    cases h2.symm.trans second
    exact ⟨rfl, rfl⟩
  · rw [exec_unpad_of_error hf he] at h
    cases h
    exact ⟨congrArg some (eq_invalidPadding_of_unpad_eq_error he), rfl⟩
  · rw [exec_b64d_of_error hf he] at h
    cases h
    exact ⟨congrArg some (eq_invalidBase64_of_b64Dec_eq_error he), rfl⟩

/-! ### Every command answers (R198, R232) -/

theorem exec_pad_of_not_fits (hf : s.fault = false) (hl : ¬ (pad s.ibuf).length < 2 ^ 64) :
    exec .pad s = .refused .lengthOutsideSpec :=
  (ifReady_of_ready hf _).trans (withOutput_of_not_fits hl _)

theorem exec_b64e_of_not_fits (hf : s.fault = false) (hl : ¬ (b64Enc s.ibuf).length < 2 ^ 64) :
    exec .b64e s = .refused .lengthOutsideSpec :=
  (ifReady_of_ready hf _).trans (withOutput_of_not_fits hl _)

theorem exec_encf_of_not_fits {r : FileResult} (hf : s.fault = false)
    (hr : encryptFile s.ibuf s.ktag s.keyin = .ok r) (hl : ¬ r.payload.length < 2 ^ 64) :
    exec .encf s = .refused .lengthOutsideSpec := by
  have size : fitsLen r.payload.length = false := by
    rw [← Bool.not_eq_true, fitsLen_iff]
    exact hl
  refine (ifReady_of_ready hf _).trans ?_
  rw [hr, orRaise_ok, installFile, size, Bool.and_false, if_neg (by decide)]

/-- ENCF delivers more than it was given, so its refusal hangs on the ciphertext alone. -/
theorem exec_encf_answers (hf : s.fault = false) : (∃ t, exec .encf s = .next t) ∨
    (exec .encf s = .refused .lengthOutsideSpec ∧ 2 ^ 64 ≤ fileSize s.ibuf.length) := by
  cases hr : encryptFile s.ibuf s.ktag s.keyin with
  | error e => exact .inl ⟨_, exec_encf_of_error hf hr⟩
  | ok r =>
    have size := length_of_encryptFile_eq_ok hr
    by_cases hl : r.payload.length < 2 ^ 64
    · have raw : s.ibuf.length < 2 ^ 64 := (le_fileSize _).trans_lt (size ▸ hl)
      exact .inl ⟨_, exec_encf_of_ok hf hr raw hl⟩
    · exact .inr ⟨exec_encf_of_not_fits hf hr hl, by omega⟩

/-- The commands that raise what their function raises, and deliver no more than IBUF holds. -/
theorem exec_of_shorter_output_answers (hf : s.fault = false) (hl : s.ibuf.length < 2 ^ 64)
    (hi : i ∈ [Instr.unpad, .b64d, .ecbe, .ecbd, .decf]) : ∃ t, exec i s = .next t := by
  simp only [List.mem_cons, List.not_mem_nil, or_false] at hi
  obtain rfl | rfl | rfl | rfl | rfl := hi
  · cases hr : unpad s.ibuf with
    | error e => exact ⟨_, exec_unpad_of_error hf hr⟩
    | ok out => exact ⟨_, exec_unpad_of_ok hf hr ((length_le_of_unpad_eq_ok hr).trans_lt hl)⟩
  · cases hr : b64Dec s.ibuf with
    | error e => exact ⟨_, exec_b64d_of_error hf hr⟩
    | ok out => exact ⟨_, exec_b64d_of_ok hf hr ((length_le_of_b64Dec_eq_ok hr).trans_lt hl)⟩
  · cases hr : ecbEncrypt s.ibuf s.rk with
    | error e => exact ⟨_, exec_ecbe_of_error hf hr⟩
    | ok out => exact ⟨_, exec_ecbe_of_ok hf hr ((length_of_ecb_eq_ok hr).trans_lt hl)⟩
  · cases hr : ecbDecrypt s.ibuf s.rk with
    | error e => exact ⟨_, exec_ecbd_of_error hf hr⟩
    | ok out => exact ⟨_, exec_ecbd_of_ok hf hr ((length_of_ecb_eq_ok hr).trans_lt hl)⟩
  · cases hr : decryptFile s.ibuf s.ktag s.keyin with
    | error e => exact ⟨_, exec_decf_of_error hf hr⟩
    | ok r =>
      have size := length_of_decryptFile_eq_ok hr
      exact ⟨_, exec_decf_of_ok hf hr hl ((le_fileSize _).trans_lt (size ▸ hl))⟩

theorem exec_keyld_answers (hf : s.fault = false) : ∃ t, exec .keyld s = .next t := by
  cases hr : normalize s.ktag s.keyin with
  | error e => exact ⟨_, exec_keyld_of_error hf hr⟩
  | ok k => exact ⟨_, exec_keyld_of_ok hf hr⟩

theorem exec_addrk_answers (hf : s.fault = false) (rnd : BitVec 4) : ∃ t, exec (.addrk rnd) s = .next t := by
  cases hr : roundIndex rnd with
  | none => exact ⟨_, exec_of_raises hf ⟨hr, rfl⟩⟩
  | some r => exact ⟨_, (ifReady_of_ready hf _).trans (by rw [hr])⟩

/-- Settles O53: only PAD, B64E and ENCF deliver more than they were given; what the others deliver fits because IBUF
does. -/
theorem everyCommandAnswers : Obligations.EveryCommandAnswers := by
  unfold Obligations.EveryCommandAnswers
  intro i s wf
  obtain ⟨hl, -, -, -⟩ := Memory.wf_iff.1 wf
  by_cases hi : i = .rst
  · subst hi
    exact .inl ⟨_, exec_rst s⟩
  cases hf : s.fault with
  | true => exact .inl ⟨s, exec_of_fault hi hf⟩
  | false =>
    cases i with
    | pad =>
      by_cases hp : (pad s.ibuf).length < 2 ^ 64
      · exact .inl ⟨_, exec_pad_of_fits hf hp⟩
      · exact .inr ⟨exec_pad_of_not_fits hf hp, .inl ⟨rfl, Nat.le_of_not_lt hp⟩⟩
    | b64e =>
      by_cases hb : (b64Enc s.ibuf).length < 2 ^ 64
      · exact .inl ⟨_, exec_b64e_of_fits hf hb⟩
      · exact .inr ⟨exec_b64e_of_not_fits hf hb, .inr (.inl ⟨rfl, Nat.le_of_not_lt hb⟩)⟩
    | encf => exact (exec_encf_answers hf).imp_right fun ⟨refused, size⟩ => ⟨refused, .inr (.inr ⟨rfl, size⟩)⟩
    | keyld => exact .inl (exec_keyld_answers hf)
    | addrk rnd => exact .inl (exec_addrk_answers hf rnd)
    | unpad => exact .inl (exec_of_shorter_output_answers hf hl (by decide))
    | b64d => exact .inl (exec_of_shorter_output_answers hf hl (by decide))
    | ecbe => exact .inl (exec_of_shorter_output_answers hf hl (by decide))
    | ecbd => exact .inl (exec_of_shorter_output_answers hf hl (by decide))
    | decf => exact .inl (exec_of_shorter_output_answers hf hl (by decide))
    | rst => exact absurd rfl hi
    | _ => exact .inl ⟨_, ifReady_of_ready hf _⟩

end Sys2Proof.Machine
end

section
/-! Who writes what (10_state.md R11 to R23, 20_memory.md R40): a completed command's `Effect` names the registers and
buffers that change; every window and register that it does not name reads as before. -/

namespace Sys2Proof.Machine

variable {s t : State} {i : Instr} {out : List Byte}

/-! ### The writers of each register and buffer -/

/-- What a command that completes leaves alone, and the writers of every other register and buffer. -/
theorem Effect.writers (h : Effect s i t) :
    t.gfa = s.gfa ∧ t.gfb = s.gfb ∧ t.ktag = s.ktag ∧ t.keyin = s.keyin ∧ t.host = s.host ∧
    (t.gfp ≠ s.gfp → i = .gfmul) ∧
    (t.key ≠ s.key → i = .keyld ∨ i = .encf ∨ i = .decf) ∧
    (t.rk ≠ s.rk → i = .keyexp ∨ i = .encf ∨ i = .decf) ∧
    (t.ibuf ≠ s.ibuf → i = .otoi) ∧
    (t.origSize ≠ s.origSize ∨ t.encSize ≠ s.encSize → i = .encf ∨ i = .decf) ∧
    (t.obuf ≠ s.obuf → i ∈ [Instr.pad, .unpad, .ecbe, .ecbd, .b64e, .b64d, .encf, .decf, .otoi]) ∧
    (t.st ≠ s.st → i ∈ [Instr.subb, .shrow, .mixc, .isubb, .ishrow, .imixc, .encb, .decb, .ecbe, .ecbd, .encf, .decf] ∨
      ∃ r, i = .addrk r) := by
  cases h with
  | product v => simp
  | schedule ks => simp
  | key k => simp
  | handOver => simp
  | block hi b =>
    simp only [List.mem_cons, List.not_mem_nil, or_false] at hi
    obtain (rfl | rfl | rfl | rfl | rfl | rfl | rfl | rfl) | ⟨r, rfl⟩ := hi <;> simp
  | output hi =>
    simp only [List.mem_cons, List.not_mem_nil, or_false] at hi
    obtain rfl | rfl | rfl | rfl := hi <;> simp
  | chain hi =>
    simp only [List.mem_cons, List.not_mem_nil, or_false] at hi
    obtain rfl | rfl := hi <;> simp
  | file hi =>
    simp only [List.mem_cons, List.not_mem_nil, or_false] at hi
    obtain rfl | rfl := hi <;> simp

/-- Settles O54: an ignored command changes nothing, one that completes has the writers of its `Effect`, and fault entry
sets FAULT. -/
theorem onlyListedCommandsWriteEachRegister : Obligations.OnlyListedCommandsWriteEachRegister := by
  unfold Obligations.OnlyListedCommandsWriteEachRegister
  intro i s t h hi
  obtain ⟨-, -, rfl⟩ | ⟨-, hc⟩ | ⟨hf, e, -, rfl⟩ := exec_next h
  · simp
  · have he := hc.effect hi
    obtain ⟨fault, err, fcmd⟩ := he.fault_registers
    obtain ⟨gfa, gfb, ktag, keyin, host, gfp, key, rk, ibuf, sizes, obuf, st⟩ := he.writers
    exact ⟨gfa, gfb, ktag, keyin, host, gfp, key, rk, ibuf, by simp [fault, err, fcmd],
      fun h => (sizes h).imp_right .inl, fun h => .inl (obuf h), fun h => (st h).imp_right .inl⟩
  · simp [hf]

/-! ### Registers and windows that a write does not name -/

@[simp] theorem readElem_setGfp (w : Window) (a : Nat) (s : State) (v : Byte) :
    readElem w a (s.setGfp v) = readElem w a s := by
  cases w <;> rfl

theorem readReg_setGfp_of_ne {r : Reg} (h : r ≠ .gfp) (s : State) (v : Byte) :
    readReg r (s.setGfp v) = readReg r s := by
  cases r
  case gfp => exact absurd rfl h
  all_goals rfl

/-- Settles O55: of the effects only four are those of a command that stores into no buffer, and each is one write of
GFP or of the destination window. -/
theorem registerCommandsFrame : Obligations.RegisterCommandsFrame := by
  unfold Obligations.RegisterCommandsFrame
  intro i s t dst hi hf h ht
  have he : Effect s i t := by
    obtain ⟨rfl, -⟩ | ⟨-, he⟩ | ⟨e, -, rfl⟩ := exec_next_of_ready hf h
    · simp at hi
    · exact he
    · cases ht
  cases he with
  | product v =>
    exact ⟨fun w a _ => readElem_setGfp w a s v,
      fun r hr => readReg_setGfp_of_ne (hr.resolve_right (not_not_intro rfl)) s v, rfl, rfl⟩
  | block hb b =>
    obtain rfl : dst = .st := by
      simp only [List.mem_cons, List.not_mem_nil, or_false] at hb
      obtain (rfl | rfl | rfl | rfl | rfl | rfl | rfl | rfl) | ⟨r, rfl⟩ := hb <;> simpa using hi
    have other : i ≠ .gfmul := by
      rintro rfl
      simp at hb
    exact ⟨fun w a hw => readElem_setSt_of_ne (hw.resolve_right other) a s b, fun r _ => readReg_setSt r s b, rfl, rfl⟩
  | schedule ks =>
    obtain rfl : dst = .rk := by simpa using hi
    exact ⟨fun w a hw => readElem_setRk_of_ne (hw.resolve_right nofun) a s ks, fun r _ => readReg_setRk r s ks,
      rfl, rfl⟩
  | key k =>
    obtain rfl : dst = .key := by simpa using hi
    exact ⟨fun w a hw => readElem_setKey_of_ne (hw.resolve_right nofun) a s k, fun r _ => readReg_setKey r s k,
      rfl, rfl⟩
  | output ho =>
    simp only [List.mem_cons, List.not_mem_nil, or_false] at ho
    obtain rfl | rfl | rfl | rfl := ho <;> simp at hi
  | chain ho =>
    simp only [List.mem_cons, List.not_mem_nil, or_false] at ho
    obtain rfl | rfl := ho <;> simp at hi
  | file ho =>
    simp only [List.mem_cons, List.not_mem_nil, or_false] at ho
    obtain rfl | rfl := ho <;> simp at hi
  | handOver => simp at hi

/-! ### The frame of the buffer commands -/

/-- A command whose function raises nothing completes. -/
theorem completes_of_exec_next (hf : s.fault = false) (h : exec i s = .next t) (hr : ∀ e, ¬ Raises i s e) :
    Completes i s t := by
  obtain ⟨faulty, -, -⟩ | ⟨-, hc⟩ | ⟨-, e, he, -⟩ := exec_next h
  · rw [hf] at faulty
    cases faulty
  · exact hc
  · exact absurd he (hr e)

/-- The commands that store the result `out` of their function into OBUF, in a state in which the function gives it. -/
def Delivers (i : Instr) (s : State) (out : List Byte) : Prop :=
  i = .pad ∧ out = pad s.ibuf ∨ i = .unpad ∧ unpad s.ibuf = .ok out ∨ i = .b64e ∧ out = b64Enc s.ibuf ∨
    i = .b64d ∧ b64Dec s.ibuf = .ok out ∨ i = .ecbe ∧ ecbEncrypt s.ibuf s.rk = .ok out ∨
    i = .ecbd ∧ ecbDecrypt s.ibuf s.rk = .ok out ∨
    i = .encf ∧ (∃ r, encryptFile s.ibuf s.ktag s.keyin = .ok r ∧ r.payload = out) ∨
    i = .decf ∧ (∃ r, decryptFile s.ibuf s.ktag s.keyin = .ok r ∧ r.payload = out)

/-- What is written beside OBUF: nothing, or ST, or ST with the sizes, KEY and RK. -/
theorem Delivers.writes (hd : Delivers i s out) (hf : s.fault = false) (h : exec i s = .next t) :
    (i ∈ [Instr.pad, .unpad, .b64e, .b64d] ∧ t = s.setObuf out) ∨
    (i ∈ [Instr.ecbe, .ecbd] ∧ t = (s.setObuf out).setSt zeroBlock) ∨
    (i ∈ [Instr.encf, .decf] ∧
      ∃ o e k ks, t = ((((s.setObuf out).setSizes o e).setKey k).setRk ks).setSt zeroBlock) := by
  have completes := completes_of_exec_next hf h
  have raisesNone {α : Type} {x : Except FaultCause α} {a : α} (hx : x = .ok a) (e : FaultCause) : x ≠ .error e := by
    rw [hx]
    nofun
  obtain ⟨rfl, rfl⟩ | ⟨rfl, hr⟩ | ⟨rfl, rfl⟩ | ⟨rfl, hr⟩ | ⟨rfl, hr⟩ | ⟨rfl, hr⟩ | ⟨rfl, r, hr, rfl⟩ |
    ⟨rfl, r, hr, rfl⟩ := hd
  · obtain ⟨-, ht⟩ := completes fun _ => id
    exact .inl ⟨by decide, ht⟩
  · obtain ⟨out', hr', -, ht⟩ := completes (raisesNone hr)
    cases hr.symm.trans hr'
    exact .inl ⟨by decide, ht⟩
  · obtain ⟨-, ht⟩ := completes fun _ => id
    exact .inl ⟨by decide, ht⟩
  · obtain ⟨out', hr', -, ht⟩ := completes (raisesNone hr)
    cases hr.symm.trans hr'
    exact .inl ⟨by decide, ht⟩
  · obtain ⟨out', hr', -, ht⟩ := completes (raisesNone hr)
    cases hr.symm.trans hr'
    exact .inr (.inl ⟨by decide, ht⟩)
  · obtain ⟨out', hr', -, ht⟩ := completes (raisesNone hr)
    cases hr.symm.trans hr'
    exact .inr (.inl ⟨by decide, ht⟩)
  · obtain ⟨r', hr', -, -, ht⟩ := completes (raisesNone hr)
    cases hr.symm.trans hr'
    exact .inr (.inr ⟨by decide, _, _, _, _, ht⟩)
  · obtain ⟨r', hr', -, -, ht⟩ := completes (raisesNone hr)
    cases hr.symm.trans hr'
    exact .inr (.inr ⟨by decide, _, _, _, _, ht⟩)

theorem readElem_st_setSt_zeroBlock (a : Nat) (s : State) : readElem .st a (s.setSt zeroBlock) = 0 := by
  simp [readElem_st]

/-- Settles O56: OBUF is the result; of the three sets of writes, two zero ST and one installs sizes, KEY and RK. -/
theorem bufferCommandsFrame : Obligations.BufferCommandsFrame := by
  unfold Obligations.BufferCommandsFrame
  intro i s t out hd hf h
  obtain ⟨hi, rfl⟩ | ⟨hi, rfl⟩ | ⟨hi, o, e, k, ks, rfl⟩ := Delivers.writes hd hf h
  · have other : i ∉ [Instr.ecbe, .ecbd, .encf, .decf] := by
      simp only [List.mem_cons, List.not_mem_nil, or_false] at hi
      obtain rfl | rfl | rfl | rfl := hi <;> decide
    exact ⟨fun a => readElem_obuf a _, rfl, fun a => ⟨rfl, rfl⟩, fun a => (if_neg other).symm,
      fun a _ _ => ⟨rfl, rfl⟩, fun _ _ => ⟨rfl, rfl⟩, rfl, rfl, rfl, rfl, rfl, rfl, rfl, rfl, rfl, rfl⟩
  · have cipher : i ∈ [Instr.ecbe, .ecbd, .encf, .decf] := List.mem_append_left [Instr.encf, .decf] hi
    refine ⟨fun a => readElem_obuf a _, rfl, fun a => ⟨rfl, rfl⟩, fun a => ?_,
      fun a _ _ => ⟨rfl, rfl⟩, fun _ _ => ⟨rfl, rfl⟩, rfl, rfl, rfl, rfl, rfl, rfl, rfl, rfl, rfl, rfl⟩
    rw [readElem_st_setSt_zeroBlock, if_pos cipher]
  · have cipher : i ∈ [Instr.ecbe, .ecbd, .encf, .decf] := List.mem_append_right [Instr.ecbe, .ecbd] hi
    have pipeline {p : Prop} (hencf : i ≠ .encf) (hdecf : i ≠ .decf) : p := by simp [hencf, hdecf] at hi
    refine ⟨fun a => readElem_obuf a _, rfl, fun a => ?_, fun a => ?_, fun a => pipeline, pipeline, ?_⟩
    · simp [readElem_ibuf, readElem_keyin]
    · rw [readElem_st_setSt_zeroBlock, if_pos cipher]
    · simp

end Sys2Proof.Machine
end

section
/-! The inverse round steps (41_block_primitives.md R92, R98 to R101) and the field laws they rest on
(40_gf_arithmetic.md R83). -/

namespace Sys2Proof.Machine

variable {s : State}

/-! ### The field (R83) -/

/-- The inverse of a byte that is not 0, read off SBOX (R91). -/
theorem exists_gmul_eq_one {a : Byte} (ha : a ≠ 0x00#8) : ∃ b, gmul b a = 0x01#8 :=
  ⟨_, gmul_sboxAffineInverse_sbox a ha⟩

theorem eq_zero_of_gmul_eq_zero {a b : Byte} (h : gmul a b = 0x00#8) (ha : a ≠ 0x00#8) : b = 0x00#8 := by
  obtain ⟨c, hc⟩ := exists_gmul_eq_one ha
  calc b = gmul (gmul c a) b := by rw [hc, gmul_one_left]
    _ = gmul c (gmul a b) := gmul_assoc c a b
    _ = 0x00#8 := by rw [h, gmul_zero_right]

/-- Settles O2: the laws follow from linearity on the powers of x; inverses come from SBOX, and cancel. -/
theorem gmulObeysTheFieldLaws : Obligations.GmulObeysTheFieldLaws := by
  unfold Obligations.GmulObeysTheFieldLaws
  refine ⟨gmul_comm, fun a b c => (gmul_assoc a b c).symm, gmul_xor_right, fun a => ?_, fun a ha => ?_,
    by decide, by decide, fun a b h => or_iff_not_imp_left.2 (eq_zero_of_gmul_eq_zero h)⟩
  · exact ⟨gmul_zero_right a, gmul_one_right a, gmul_two a, (gmul_comm a _).trans (gmul_three_left a)⟩
  · obtain ⟨b, hb⟩ := exists_gmul_eq_one ha
    exact ⟨b, (gmul_comm a b).trans hb, fun c hc => eq_of_gmul_eq_one hb hc⟩

/-- Settles O4: both tables are looked up at every byte. -/
theorem invSboxInvertsSbox : Obligations.InvSboxInvertsSbox := by
  unfold Obligations.InvSboxInvertsSbox
  exact fun a => ⟨invSbox_sbox a, sbox_invSbox a⟩

/-! ### ISUBB and ISHROW (R98, R99) -/

theorem invSubBytes_eq (b : Block) : invSubBytes b =
    #v[invSbox b[0], invSbox b[1], invSbox b[2], invSbox b[3], invSbox b[4], invSbox b[5], invSbox b[6], invSbox b[7],
      invSbox b[8], invSbox b[9], invSbox b[10], invSbox b[11], invSbox b[12], invSbox b[13], invSbox b[14],
      invSbox b[15]] := block_ofFn_eq _

theorem invShiftRows_eq (b : Block) : invShiftRows b =
    #v[b[0], b[13], b[10], b[7], b[4], b[1], b[14], b[11], b[8], b[5], b[2], b[15], b[12], b[9], b[6], b[3]] :=
  block_ofFn_eq _

/-- R99, with the column `c + r` added modulo 4. -/
theorem invShiftRows_get (b : Block) (r c : Fin 4) :
    (invShiftRows b)[r.val + 4 * (c + r).val] = b[r.val + 4 * c.val] := by
  have row : (r.val + 4 * (c + r).val) % 4 = r.val := by omega
  have column : ((r.val + 4 * (c + r).val) / 4 + 4 - r.val) % 4 = c.val := by omega
  simp only [invShiftRows, Vector.getElem_ofFn, row, column]

theorem invShiftRows_shiftRows (b : Block) : invShiftRows (shiftRows b) = b := by
  refine block_ext_rows_columns fun r c => ?_
  have back : c - r + r = c := sub_add_cancel c r
  calc (invShiftRows (shiftRows b))[r.val + 4 * c.val]
      = (invShiftRows (shiftRows b))[r.val + 4 * (c - r + r).val] := by simp only [back]
    _ = (shiftRows b)[r.val + 4 * (c - r).val] := invShiftRows_get _ r (c - r)
    _ = b[r.val + 4 * (c - r + r).val] := shiftRows_get b r (c - r)
    _ = b[r.val + 4 * c.val] := by simp only [back]

theorem shiftRows_invShiftRows (b : Block) : shiftRows (invShiftRows b) = b :=
  block_ext_rows_columns fun r c => (shiftRows_get _ r c).trans (invShiftRows_get b r c)

theorem invSubBytes_subBytes (b : Block) : invSubBytes (subBytes b) = b := by
  ext1 i hi
  simp [invSubBytes, subBytes, invSbox_sbox]

theorem subBytes_invSubBytes (b : Block) : subBytes (invSubBytes b) = b := by
  ext1 i hi
  simp [invSubBytes, subBytes, sbox_invSbox]

/-- One works on the bytes and the other on their places. -/
theorem subBytes_shiftRows (b : Block) : subBytes (shiftRows b) = shiftRows (subBytes b) := by
  ext1 i hi
  simp [subBytes, shiftRows]

theorem invSubBytes_invShiftRows (b : Block) : invSubBytes (invShiftRows b) = invShiftRows (invSubBytes b) := by
  ext1 i hi
  simp [invSubBytes, invShiftRows]

/-- Settles O10: each command is one write of ST, of the sixteen bytes that its equation lists; a byte's substitution
and its place do not interact. -/
theorem isubbAndIshrowComplete : Obligations.IsubbAndIshrowComplete := by
  unfold Obligations.IsubbAndIshrowComplete
  refine ⟨rfl, rfl, fun s h => ?_, fun s h => ?_, fun s h => ⟨exec_of_fault nofun h, exec_of_fault nofun h⟩,
    fun s h => ⟨?_, ?_⟩, fun b r c => invShiftRows_get b r c⟩
  · rw [exec_isubb_of_ready h, invSubBytes_eq]
    rfl
  · rw [exec_ishrow_of_ready h, invShiftRows_eq]
    rfl
  · simp only [WritesSt.ishrow.cons WritesSt.isubb s h, WritesSt.isubb.cons WritesSt.ishrow s h,
      invSubBytes_invShiftRows]
  · simp only [WritesSt.shrow.cons WritesSt.subb s h, WritesSt.subb.cons WritesSt.shrow s h, subBytes_shiftRows]

/-! ### IMIXC (R100, R101) -/

/-- Entry (r, c) of the product of two 4x4 matrices over GF(2^8). -/
def matrixProduct (m m' : List (List Byte)) (r c : Nat) : Byte :=
  gmul (coef m r 0) (coef m' 0 c) ^^^ gmul (coef m r 1) (coef m' 1 c) ^^^ gmul (coef m r 2) (coef m' 2 c) ^^^
    gmul (coef m r 3) (coef m' 3 c)

theorem matrixProduct_invMix_mix : ∀ r c : Fin 4,
    matrixProduct invMixMatrix mixMatrix r.val c.val = if r = c then 0x01#8 else 0x00#8 := by decide

theorem matrixProduct_mix_invMix : ∀ r c : Fin 4,
    matrixProduct mixMatrix invMixMatrix r.val c.val = if r = c then 0x01#8 else 0x00#8 := by decide

theorem mixWith_get_of_lt (m : List (List Byte)) (b : Block) (c : Fin 4) {k : Nat} (hk : k < 4) :
    (mixWith m b)[4 * c.val + k] =
      gmul (coef m k 0) b[4 * c.val] ^^^ gmul (coef m k 1) b[4 * c.val + 1] ^^^
        gmul (coef m k 2) b[4 * c.val + 2] ^^^ gmul (coef m k 3) b[4 * c.val + 3] := mixWith_get m b c ⟨k, hk⟩

/-- Multiplying by two matrices in turn is multiplying by their product. -/
theorem mixWith_mixWith_get (m m' : List (List Byte)) (b : Block) (c r : Fin 4) :
    (mixWith m (mixWith m' b))[4 * c.val + r.val] =
      gmul (matrixProduct m m' r.val 0) b[4 * c.val] ^^^ gmul (matrixProduct m m' r.val 1) b[4 * c.val + 1] ^^^
        gmul (matrixProduct m m' r.val 2) b[4 * c.val + 2] ^^^ gmul (matrixProduct m m' r.val 3) b[4 * c.val + 3] := by
  have row0 : (mixWith m' b)[4 * c.val] = _ := mixWith_get_of_lt m' b c (k := 0) (by decide)
  have row1 := mixWith_get_of_lt m' b c (k := 1) (by decide)
  have row2 := mixWith_get_of_lt m' b c (k := 2) (by decide)
  have row3 := mixWith_get_of_lt m' b c (k := 3) (by decide)
  rw [mixWith_get, row0, row1, row2, row3]
  simp only [matrixProduct, gmul_xor_left, gmul_xor_right, gmul_assoc]
  ac_rfl

/-- A matrix with a left inverse is undone by it. -/
theorem mixWith_mixWith_of_inverse {m m' : List (List Byte)}
    (h : ∀ r c : Fin 4, matrixProduct m m' r.val c.val = if r = c then 0x01#8 else 0x00#8) (b : Block) :
    mixWith m (mixWith m' b) = b := by
  refine block_ext_rows_columns fun r c => ?_
  have column := mixWith_mixWith_get m m' b c r
  have entry0 : matrixProduct m m' r.val 0 = _ := h r 0
  have entry1 : matrixProduct m m' r.val 1 = _ := h r 1
  have entry2 : matrixProduct m m' r.val 2 = _ := h r 2
  have entry3 : matrixProduct m m' r.val 3 = _ := h r 3
  rw [entry0, entry1, entry2, entry3] at column
  simp only [Nat.add_comm r.val]
  rw [column]
  fin_cases r <;> simp

theorem invMixColumns_mixColumns (b : Block) : invMixColumns (mixColumns b) = b :=
  mixWith_mixWith_of_inverse matrixProduct_invMix_mix b

theorem mixColumns_invMixColumns (b : Block) : mixColumns (invMixColumns b) = b :=
  mixWith_mixWith_of_inverse matrixProduct_mix_invMix b

/-- Settles O11: the product of the two printed matrices is looked at entry by entry, and IMIXC is one write of ST by
the rows of INV_MIX. -/
theorem imixcMultipliesByTheInverseMatrix : Obligations.ImixcMultipliesByTheInverseMatrix := by
  unfold Obligations.ImixcMultipliesByTheInverseMatrix
  refine ⟨rfl, matrixProduct_invMix_mix, fun s h => ⟨invMixColumns s.st, exec_imixc_of_ready h, ?_⟩,
    fun s h => exec_of_fault nofun h⟩
  rintro c _ _ _ _ rfl rfl rfl rfl
  have column := mixWith_get invMixMatrix s.st c
  exact ⟨column 0, column 1, column 2, column 3⟩

/-! ### Each command undoes its inverse -/

/-- A write of ST and then one that restores it leave the whole state as it was. -/
theorem execAll_of_undone {i j : Instr} {f g : RoundKeys → Block → Block} (hi : WritesSt [i] f) (hj : WritesSt [j] g)
    (undo : ∀ rk b, g rk (f rk b) = b) (h : s.fault = false) : execAll [i, j] s = .next s := by
  refine (hi.cons hj s h).trans ?_
  simp only [undo, State.setSt_st_self]

/-- Settles O12: each pair writes ST twice, the second time back. -/
theorem inverseCommandsUndoForwardCommands : Obligations.InverseCommandsUndoForwardCommands := by
  unfold Obligations.InverseCommandsUndoForwardCommands
  exact fun s h => ⟨execAll_of_undone .subb .isubb (fun _ => invSubBytes_subBytes) h,
    execAll_of_undone .isubb .subb (fun _ => subBytes_invSubBytes) h,
    execAll_of_undone .shrow .ishrow (fun _ => invShiftRows_shiftRows) h,
    execAll_of_undone .ishrow .shrow (fun _ => shiftRows_invShiftRows) h,
    execAll_of_undone .mixc .imixc (fun _ => invMixColumns_mixColumns) h,
    execAll_of_undone .imixc .mixc (fun _ => mixColumns_invMixColumns) h⟩

end Sys2Proof.Machine
end

section
/-! Decryption inverts encryption, of a block (45_block_engine.md R142) and of a chain (R147). -/

namespace Sys2Proof.Machine

variable {s : State} {a b c d : List Byte} {rk : RoundKeys}

/-! ### One block (R142) -/

theorem decRound_encRound (rk : RoundKeys) (b : Block) (r : Fin 11) : decRound rk (encRound rk b r) r = b := by
  rw [decRound, encRound, xor16_self_cancel, invMixColumns_mixColumns, invShiftRows_shiftRows, invSubBytes_subBytes]

theorem encRound_decRound (rk : RoundKeys) (b : Block) (r : Fin 11) : encRound rk (decRound rk b r) r = b := by
  rw [decRound, encRound, subBytes_invSubBytes, shiftRows_invShiftRows, mixColumns_invMixColumns, xor16_self_cancel]

/-- Rounds undone one by one, the last one first. -/
theorem foldl_reverse_foldl {α β : Type} {f g : α → β → α} (undo : ∀ a r, g (f a r) r = a) (rs : List β) (a : α) :
    rs.reverse.foldl g (rs.foldl f a) = a := by
  induction rs generalizing a with
  | nil => rfl
  | cons r rs ih => simp only [List.reverse_cons, List.foldl_append, List.foldl_cons, List.foldl_nil, ih, undo]

theorem decryptBlock_encryptBlock (b : Block) (rk : RoundKeys) : decryptBlock (encryptBlock b rk) rk = b := by
  rw [decryptBlock, encryptBlock, xor16_self_cancel, invShiftRows_shiftRows, invSubBytes_subBytes,
    foldl_reverse_foldl (decRound_encRound rk), xor16_self_cancel]

theorem encryptBlock_decryptBlock (b : Block) (rk : RoundKeys) : encryptBlock (decryptBlock b rk) rk = b := by
  have rounds := foldl_reverse_foldl (encRound_decRound rk) fullRounds.reverse
  rw [List.reverse_reverse] at rounds
  rw [encryptBlock, decryptBlock, xor16_self_cancel, rounds, subBytes_invSubBytes, shiftRows_invShiftRows,
    xor16_self_cancel]

theorem WritesSt.encb : WritesSt [.encb] fun rk b => encryptBlock b rk := singleton fun _ => exec_encb_of_ready

theorem WritesSt.decb : WritesSt [.decb] fun rk b => decryptBlock b rk := singleton fun _ => exec_decb_of_ready

/-- Settles O24: each step of a round undoes its inverse, and the rounds are undone in the opposite order. -/
theorem decryptionInvertsEncryption : Obligations.DecryptionInvertsEncryption := by
  unfold Obligations.DecryptionInvertsEncryption
  exact ⟨decryptBlock_encryptBlock, encryptBlock_decryptBlock, fun s h =>
    ⟨execAll_of_undone .encb .decb (fun rk b => decryptBlock_encryptBlock b rk) h,
      execAll_of_undone .decb .encb (fun rk b => encryptBlock_decryptBlock b rk) h⟩⟩

/-! ### A chain (R147) -/

theorem Block.ofBytes_append (h : 16 ≤ a.length) (b : List Byte) : Block.ofBytes (a ++ b) = Block.ofBytes a := by
  rw [← Block.ofBytes_take (a ++ b), List.take_append_of_le_length h, Block.ofBytes_take]

theorem Block.ofBytes_toList (x : Block) : Block.ofBytes x.toList = x := by
  ext1 i hi
  simp [hi]

theorem Block.toList_ofBytes (h : 16 ≤ d.length) : (Block.ofBytes d).toList = d.take 16 := by
  refine List.ext_getElem (by simp [h]) fun i hi hi' => ?_
  have hd : i < d.length := hi'.trans_le (List.length_take_le' 16 d)
  rw [Vector.getElem_toList, Block.ofBytes_get, getD_of_lt d _ hd, List.getElem_take]

theorem mapBlocks_append (f : Block → Block) {n : Nat} (h : a.length = 16 * n) (m : Nat) (b : List Byte) :
    mapBlocks f (n + m) (a ++ b) = mapBlocks f n a ++ mapBlocks f m b := by
  induction n generalizing a with
  | zero =>
    obtain rfl := List.length_eq_zero_iff.1 h
    rw [Nat.zero_add]
    rfl
  | succ n ih =>
    have rest : (a.drop 16).length = 16 * n := by
      rw [List.length_drop]
      omega
    rw [Nat.add_right_comm, mapBlocks, mapBlocks, Block.ofBytes_append (by omega),
      List.drop_append_of_le_length (by omega), ih rest, List.append_assoc]

/-- A chain of blocks is undone block by block. -/
theorem mapBlocks_mapBlocks {f g : Block → Block} (undo : ∀ x, g (f x) = x) {n : Nat} (h : d.length = 16 * n) :
    mapBlocks g n (mapBlocks f n d) = d := by
  induction n generalizing d with
  | zero => exact (List.length_eq_zero_iff.1 h).symm
  | succ n ih =>
    have first : (f (Block.ofBytes d)).toList.length = 16 := Vector.length_toList
    have rest : (d.drop 16).length = 16 * n := by
      rw [List.length_drop]
      omega
    rw [mapBlocks, mapBlocks, Block.ofBytes_append first.ge, Block.ofBytes_toList, undo,
      Block.toList_ofBytes (by omega), List.drop_left' first, ih rest, List.take_append_drop]

theorem ecb_eq_ok_iff {f : Block → Block} :
    ecb f d = .ok c ↔ d.length % 16 = 0 ∧ mapBlocks f (d.length / 16) d = c := by
  constructor
  · intro h
    have whole := length_multiple_of_ecb_eq_ok h
    rw [ecb_of_multiple f whole] at h
    exact ⟨whole, Except.ok.inj h⟩
  · rintro ⟨whole, rfl⟩
    exact ecb_of_multiple f whole

theorem ecbDecrypt_of_ecbEncrypt (h : ecbEncrypt d rk = .ok c) : ecbDecrypt c rk = .ok d := by
  have length := length_of_ecb_eq_ok h
  obtain ⟨whole, rfl⟩ := ecb_eq_ok_iff.1 h
  refine ecb_eq_ok_iff.2 ⟨by rw [length, whole], ?_⟩
  rw [length]
  exact mapBlocks_mapBlocks (fun x => decryptBlock_encryptBlock x rk) (by omega)

theorem ecbEncrypt_append {ca cb : List Byte} (ha : ecbEncrypt a rk = .ok ca) (hb : ecbEncrypt b rk = .ok cb) :
    ecbEncrypt (a ++ b) rk = .ok (ca ++ cb) := by
  obtain ⟨wholeA, rfl⟩ := ecb_eq_ok_iff.1 ha
  obtain ⟨wholeB, rfl⟩ := ecb_eq_ok_iff.1 hb
  have blocks : (a ++ b).length / 16 = a.length / 16 + b.length / 16 := by
    rw [List.length_append]
    omega
  refine ecb_eq_ok_iff.2 ⟨by rw [List.length_append]; omega, ?_⟩
  rw [blocks]
  exact mapBlocks_append _ (by omega) _ b

/-- Settles O26: block k of the ciphertext is a function of block k of the plaintext alone, and that function has
`decryptBlock` as its inverse. -/
theorem ecbHasNoChaining : Obligations.EcbHasNoChaining := by
  unfold Obligations.EcbHasNoChaining
  refine ⟨fun d c rk i j h hi hj equal => ?_, fun d c rk => ecbDecrypt_of_ecbEncrypt,
    fun a b ca cb rk => ecbEncrypt_append, fun rk => Function.bijective_iff_has_inverse.2
      ⟨(decryptBlock · rk), fun b => decryptBlock_encryptBlock b rk, fun b => encryptBlock_decryptBlock b rk⟩⟩
  obtain ⟨-, rfl⟩ := ecb_eq_ok_iff.1 h
  rw [slice_mapBlocks _ hi, slice_mapBlocks _ hj, equal]

end Sys2Proof.Machine
end

section
/-! The key codec, the lengths, and the pipelines from end to end (43_key_codec.md R125, 46_base64.md R160,
47_pipelines.md R171, R172, R175). -/

namespace Sys2Proof.Machine

variable {s t : State} {k : Block} {raw : List Byte} {tag : BitVec 2} {es : List Elem}

/-! ### A normalised key (R125) -/

theorem elemBytes_bytes (k : Block) : elemBytes (k.toList.map (BitVec.setWidth 21)) = k := by
  ext1 i hi
  rw [elemBytes_get _ hi (by simpa using hi), List.getElem_map, Vector.getElem_toList]
  exact BitVec.setWidth_setWidth_of_le _ (by decide)

/-- Settles O18: sixteen bytes are taken as they are, and a normalised key is sixteen bytes. -/
theorem normalizeIsIdempotent : Obligations.NormalizeIsIdempotent := by
  unfold Obligations.NormalizeIsIdempotent
  intro tag es k _
  rw [normalize_bin_of_length (by simp), elemBytes_bytes]

/-! ### Lengths (R160, R172) -/

/-- Each pad character stands for a byte that the last group lacks. -/
theorem length_add_count_b64Enc (b : List Byte) :
    b.length + (b64Enc b).count b64Pad = 3 * ((b64Enc b).length / 4) := by
  induction b using b64Enc.induct with
  | case1 => rfl
  | case2 b0 => simp [b64Enc_one, b64Char_ne_b64Pad]
  | case3 b0 b1 => simp [b64Enc_two, b64Char_ne_b64Pad]
  | case4 b0 b1 b2 rest ih =>
    simp only [List.length_cons, b64Enc_group, List.cons_append, List.nil_append, ne_eq, b64Char_ne_b64Pad,
      not_false_eq_true, List.count_cons_of_ne]
    omega

theorem length_le_pad_length (d : List Byte) : d.length ≤ (pad d).length := by
  rw [pad_eq, List.length_append]
  omega

theorem b64Char_lt (v : BitVec 6) : (b64Char v).toNat < 0x80 := by
  revert v
  decide

theorem b64Enc_lt (b : List Byte) : ∀ ch ∈ b64Enc b, ch.toNat < 0x80 := by
  have pad : b64Pad.toNat < 0x80 := by decide
  induction b using b64Enc.induct with
  | case1 => exact nofun
  | case2 b0 => simp [b64Enc_one, b64Char_lt, pad]
  | case3 b0 b1 => simp [b64Enc_two, b64Char_lt, pad]
  | case4 b0 b1 b2 rest ih => simpa [b64Enc_group, b64Char_lt] using ih

/-- Settles O31: the chain keeps the length that padding and encoding give; what `b64dec` accepts is an encoded text. -/
theorem lengthsFollowTheSizeLaws : Obligations.LengthsFollowTheSizeLaws := by
  unfold Obligations.LengthsFollowTheSizeLaws
  refine ⟨fun raw tag es r => length_of_encryptFile_eq_ok, by decide, b64Enc_length, fun t b h => ?_, b64Enc_lt⟩
  obtain rfl := b64Dec_eq_ok_iff.1 h
  exact Nat.eq_sub_of_add_eq (length_add_count_b64Enc b)

/-! ### ENCF and the seven commands (R171) -/

theorem exec_otoi_of_ready (h : s.fault = false) : exec .otoi s = .next ((s.setIbuf s.obuf).setObuf []) :=
  ifReady_of_ready h _

/-- ENCF with a good key, where the ciphertext fits (R171). -/
theorem exec_encf_of_key {c : List Byte} (h : s.fault = false) (hk : normalize s.ktag s.keyin = .ok k)
    (hc : ecbEncrypt (pad (b64Enc s.ibuf)) (expand k) = .ok c) (hl : fileSize s.ibuf.length < 2 ^ 64) : exec .encf s =
      .next (((((s.setObuf c).setSizes s.ibuf.length c.length).setKey k).setRk (expand k)).setSt zeroBlock) := by
  have size : c.length = fileSize s.ibuf.length := (length_of_ecb_eq_ok hc).trans (pad_b64Enc_length _)
  exact exec_encf_of_ok h (encryptFile_of_ok hk hc) ((le_fileSize _).trans_lt hl) (size.trans_lt hl)

/-- A command that delivers `out`, followed by OTOI, makes `out` the next command's input. -/
theorem execAll_handOver {i : Instr} {out : List Byte} (h : s.fault = false) (hi : exec i s = .next (s.setObuf out))
    (is : List Instr) : execAll (i :: .otoi :: is) s = execAll is ((s.setIbuf out).setObuf []) := by
  have moved : exec .otoi (s.setObuf out) = .next ((s.setIbuf out).setObuf []) := exec_otoi_of_ready h
  rw [execAll_cons_of_next hi, execAll_cons_of_next moved]

/-- B64E, PAD and ECBE in turn, each fed the output of the one before, under RK as it stands. -/
theorem execAll_encode_pad_encrypt {c : List Byte} (h : s.fault = false)
    (hc : ecbEncrypt (pad (b64Enc s.ibuf)) s.rk = .ok c) (hl : (pad (b64Enc s.ibuf)).length < 2 ^ 64) :
    execAll [.b64e, .otoi, .pad, .otoi, .ecbe] s =
      .next (((s.setIbuf (pad (b64Enc s.ibuf))).setObuf c).setSt zeroBlock) := by
  have text : (b64Enc s.ibuf).length < 2 ^ 64 := (length_le_pad_length _).trans_lt hl
  have cipher : c.length < 2 ^ 64 := (length_of_ecb_eq_ok hc).trans_lt hl
  have padded : exec .pad ((s.setIbuf (b64Enc s.ibuf)).setObuf []) =
      .next (((s.setIbuf (b64Enc s.ibuf)).setObuf []).setObuf (pad (b64Enc s.ibuf))) := exec_pad_of_fits h hl
  have encrypted : exec .ecbe ((s.setIbuf (pad (b64Enc s.ibuf))).setObuf []) =
      .next (((s.setIbuf (pad (b64Enc s.ibuf))).setObuf c).setSt zeroBlock) := exec_ecbe_of_ok h hc cipher
  rw [execAll_handOver h (exec_b64e_of_fits h text)]
  exact (execAll_handOver (s := (s.setIbuf (b64Enc s.ibuf)).setObuf []) h padded [.ecbe]).trans
    ((execAll_singleton .ecbe _).trans encrypted)

/-- The seven commands, each from the state that the one before left. -/
theorem execAll_staged {c : List Byte} (h : s.fault = false) (hk : normalize s.ktag s.keyin = .ok k)
    (hc : ecbEncrypt (pad (b64Enc s.ibuf)) (expand k) = .ok c) (hl : fileSize s.ibuf.length < 2 ^ 64) :
    execAll [.keyld, .keyexp, .b64e, .otoi, .pad, .otoi, .ecbe] s =
      .next (((((s.setKey k).setRk (expand k)).setIbuf (pad (b64Enc s.ibuf))).setObuf c).setSt zeroBlock) := by
  have scheduled : exec .keyexp (s.setKey k) = .next ((s.setKey k).setRk (expand k)) := exec_keyexp_of_ready h
  rw [execAll_cons_of_next (exec_keyld_of_ok h hk), execAll_cons_of_next scheduled]
  exact execAll_encode_pad_encrypt (s := (s.setKey k).setRk (expand k)) h hc ((pad_b64Enc_length _).trans_lt hl)

/-- Settles O33: both ways store the ciphertext of the padded text, the key and its schedule, and zero ST. -/
theorem encfEqualsTheStagedCommands : Obligations.EncfEqualsTheStagedCommands := by
  unfold Obligations.EncfEqualsTheStagedCommands
  intro s k h hk hl
  obtain ⟨c, hc⟩ := ecbEncrypt_pad (b64Enc s.ibuf) (expand k)
  exact ⟨_, _, exec_encf_of_key h hk hc hl, execAll_staged h hk hc hl,
    rfl, rfl, rfl, rfl, rfl, rfl, rfl, rfl, h, h, rfl⟩

/-! ### The round trip (R175) -/

theorem decryptFile_of_encrypted {c : List Byte} (hk : normalize tag es = .ok k)
    (hc : ecbEncrypt (pad (b64Enc raw)) (expand k) = .ok c) : decryptFile c tag es = .ok ⟨raw, k, expand k⟩ :=
  decryptFile_of_ok hk (ecbDecrypt_of_ecbEncrypt hc) (unpad_pad _) (b64Dec_b64Enc raw)

theorem run_succ_of_next (M : Host.Core) {s t : M.State} (h : M.step s = .next t) (n : Nat) :
    M.run (n + 1) s = M.run n t := by
  rw [Host.Core.run, h]

/-- The host makes the first move of the script; if the move leaves the host's record alone, the rest of the script is
run from the state that it leaves. -/
theorem runScript_cons {m : HostMove} {ms : List HostMove} {r : Result} (h : hostMove m (withScript ms s) = .next t)
    (hh : t.host = (withScript ms s).host) (hr : runScript ms t = r) : runScript (m :: ms) s = r := by
  have same : withScript ms t = t := by
    rw [withScript, hh]
    exact congrArg t.setHost hh.symm
  have step : Sys2Proof.core.step (withScript (m :: ms) s) = .next (withScript ms t) := same ▸ h
  exact (run_succ_of_next Sys2Proof.core step ms.length).trans hr

theorem runScript_nil (s : State) : runScript [] s = .next (withScript [] s) := rfl

/-- A key has at most 32 elements. -/
theorem length_le_of_normalize_eq_ok (h : normalize tag es = .ok k) : es.length ≤ 32 := by
  unfold normalize at h
  split_ifs at h <;> omega

/-- What DECF reads after ENCF and OTOI: the ciphertext, in IBUF once handed over, and the key input. -/
theorem exec_encf_keeps_key_input {c : List Byte} (h : s.fault = false) (hk : normalize s.ktag s.keyin = .ok k)
    (hc : ecbEncrypt (pad (b64Enc s.ibuf)) (expand k) = .ok c) (hl : fileSize s.ibuf.length < 2 ^ 64) :
    ∃ t, exec .encf s = .next t ∧ t.fault = false ∧ t.obuf = c ∧ t.ktag = s.ktag ∧ t.keyin = s.keyin ∧
      t.host = s.host :=
  ⟨_, exec_encf_of_key h hk hc hl, h, rfl, rfl, rfl, rfl⟩

/-- DECF on the ciphertext of `raw` (R174). -/
theorem exec_decf_of_encrypted {c : List Byte} (h : s.fault = false) (hk : normalize s.ktag s.keyin = .ok k)
    (hc : ecbEncrypt (pad (b64Enc raw)) (expand k) = .ok c) (hi : s.ibuf = c) (hl : fileSize raw.length < 2 ^ 64) :
    ∃ t, exec .decf s = .next t ∧ t.fault = false ∧ t.obuf = raw ∧ t.origSize.toNat = raw.length ∧
      t.encSize.toNat = fileSize raw.length ∧ t.host = s.host := by
  have size : s.ibuf.length = fileSize raw.length := by
    rw [hi, length_of_ecb_eq_ok hc, pad_b64Enc_length]
  have rawFits : raw.length < 2 ^ 64 := (le_fileSize _).trans_lt hl
  have decrypted : decryptFile s.ibuf s.ktag s.keyin = .ok ⟨raw, k, expand k⟩ := by
    rw [hi]
    exact decryptFile_of_encrypted hk hc
  refine ⟨_, exec_decf_of_ok h decrypted (size.trans_lt hl) rawFits, h, rfl, ?_, ?_, rfl⟩
  · simpa using rawFits
  · simpa [size] using hl

/-- ENCF, OTOI and DECF, once key and raw bytes are loaded. -/
theorem runScript_encf_otoi_decf (h : s.fault = false) (hk : normalize s.ktag s.keyin = .ok k)
    (hl : fileSize s.ibuf.length < 2 ^ 64) :
    ∃ t, runScript [.issue 0x0060#16, .issue 0x0070#16, .issue 0x0061#16] s = .next t ∧ t.fault = false ∧
      t.obuf = s.ibuf ∧ t.origSize.toNat = s.ibuf.length ∧ t.encSize.toNat = fileSize s.ibuf.length := by
  obtain ⟨c, hc⟩ := ecbEncrypt_pad (b64Enc s.ibuf) (expand k)
  obtain ⟨t1, encf, fault1, obuf1, ktag1, keyin1, host1⟩ :=
    exec_encf_keeps_key_input (s := withScript [.issue 0x0070#16, .issue 0x0061#16] s) h hk hc hl
  have otoi := exec_otoi_of_ready (s := withScript [.issue 0x0061#16] t1) fault1
  have key1 : normalize t1.ktag t1.keyin = .ok k := by
    rw [ktag1, keyin1]
    exact hk
  obtain ⟨t, decf, fault, obuf, orig, enc, host⟩ := exec_decf_of_encrypted
    (s := withScript [] (((withScript [.issue 0x0061#16] t1).setIbuf t1.obuf).setObuf [])) fault1 key1 hc obuf1 hl
  refine ⟨withScript [] t, ?_, fault, obuf, orig, enc⟩
  exact runScript_cons encf host1 (runScript_cons otoi rfl (runScript_cons decf host (runScript_nil t)))

/-- Settles O36: the loads put key and raw bytes where ENCF reads them; ENCF's ciphertext is handed over by OTOI, and
DECF undoes chain, padding and encoding under the same key. -/
theorem decryptionReturnsTheEncryptedFile : Obligations.DecryptionReturnsTheEncryptedFile := by
  unfold Obligations.DecryptionReturnsTheEncryptedFile
  intro s tag es k raw h legal hk hl
  have keyFits : es.length < 2 ^ 64 := (length_le_of_normalize_eq_ok hk).trans_lt (by decide)
  have rawFits : raw.length < 2 ^ 64 := (le_fileSize _).trans_lt hl
  have loadKey (u : State) := hostMove_loadKey keyFits legal u
  have loadIbuf (u : State) := hostMove_loadIbuf rawFits u
  obtain ⟨t, run, result⟩ := runScript_encf_otoi_decf
    (s := (withScript _ ((withScript _ s).setKeyInput tag es)).setIbuf raw) h hk hl
  exact ⟨t, runScript_cons (loadKey _) rfl (runScript_cons (loadIbuf _) rfl run), result⟩

end Sys2Proof.Machine
end

section
/-! Status and start-up (10_state.md R20, 70_reset_and_hazards.md R222), the step (20_memory.md R50, R52), and the
host's moves in the fault state and outside the spec (60_exceptions.md R194, 10_state.md R24, 20_memory.md R49). -/

namespace Sys2Proof.Machine

variable {s : State}

/-! ### OTOI (R185) -/

/-- Settles O37: OTOI is two writes of the old OBUF's place, so a second OTOI hands over the empty OBUF. -/
theorem otoiMovesTheOutput : Obligations.OtoiMovesTheOutput := by
  unfold Obligations.OtoiMovesTheOutput
  refine ⟨rfl, fun s h => exec_otoi_of_ready h, fun s h => exec_of_fault nofun h, fun s h => ?_⟩
  rw [execAll_cons_of_next (exec_otoi_of_ready h), execAll_singleton]
  exact exec_otoi_of_ready h

/-! ### STATUS (R20, R190) -/

theorem statusReg_fields (code : BitVec 4) (fault : Bool) :
    (code ++ 0#3 ++ BitVec.ofBool fault).getLsbD 0 = fault ∧
      (code ++ 0#3 ++ BitVec.ofBool fault).extractLsb' 1 3 = 0#3 ∧
      (code ++ 0#3 ++ BitVec.ofBool fault).extractLsb' 4 4 = code := by
  revert code fault
  decide

theorem statusReg_of_err {e : FaultCause} (hf : s.fault = true) (he : s.err = some e) :
    (statusReg s).toNat = 16 * e.code.toNat + 1 := by
  rw [statusReg, hf, he]
  cases e <;> rfl

theorem statusReg_resetCore (s : State) : statusReg (resetCore s) = 0x00#8 := by
  rw [statusReg, resetCore_err, resetCore_fault]
  rfl

/-- Settles O43: the three fields are read back for every code and flag. -/
theorem statusShowsFaultAndCode : Obligations.StatusShowsFaultAndCode := by
  unfold Obligations.StatusShowsFaultAndCode
  exact ⟨fun s => statusReg_fields (errCode s.err) s.fault, fun e c s => statusReg_of_err rfl rfl,
    statusReg_resetCore, rfl⟩

/-! ### Start-up (R222) -/

theorem expand_zeroBlock_one : (expand zeroBlock)[1].toList =
    [0x62#8, 0x63#8, 0x63#8, 0x63#8, 0x62#8, 0x63#8, 0x63#8, 0x63#8, 0x62#8, 0x63#8, 0x63#8, 0x63#8,
      0x62#8, 0x63#8, 0x63#8, 0x63#8] := by decide

/-- Settles O39: the zero key has a schedule that is not zero, and the empty key input of reset has the wrong length. -/
theorem startUpNeedsAKey : Obligations.StartUpNeedsAKey := by
  unfold Obligations.StartUpNeedsAKey
  have key : normalize State.reset.ktag State.reset.keyin = .error .invalidKeyLength :=
    normalize_bin_of_length_ne (by decide)
  exact ⟨expand_zeroBlock_ne_zero, expand_zeroBlock_one, exec_keyexp_of_ready rfl, exec_keyld_of_error rfl key,
    exec_encf_of_error rfl (encryptFile_of_key_error key _), exec_decf_of_error rfl (decryptFile_of_key_error key _)⟩

/-! ### The step (R50, R52) -/

/-- Settles O50: the legal words are the encodings of their commands; the illegal ones are looked up. -/
theorem tableWordsDecode : Obligations.TableWordsDecode := by
  unfold Obligations.TableWordsDecode
  have row {c : CmdWord} {i : Instr} (hi : i.wellFormed = true) (h : encode i = c) : decode c = .ok i :=
    decode_eq_ok_iff.2 ⟨hi, h⟩
  exact ⟨row rfl rfl, row rfl rfl, row rfl rfl, row rfl rfl, row rfl rfl, row rfl rfl, row rfl rfl, row rfl rfl,
    row rfl rfl, row rfl rfl, row rfl rfl, row rfl rfl, rfl, rfl, rfl, rfl⟩

theorem step_of_script {m : HostMove} {rest : List HostMove} (h : s.host.script = m :: rest) :
    step s = hostMove m (s.setHost ⟨rest, s.host.got⟩) := by
  rw [step, h]
  rfl

/-- A write to CMD is Issue (R19). -/
theorem hostMove_writeReg_cmd (c : CmdWord) (s : State) : hostMove (.writeReg 0 c.toNat) s = moveIssue c s := by
  refine (if_pos c.isLt).trans ?_
  rw [BitVec.ofNat_toNat, BitVec.setWidth_eq]

theorem step_withFetchWord (c : CmdWord) (s : State) : step (s.withFetchWord 16 c.toNat) = moveIssue c s := by
  have word : BitVec.ofNat 16 (c.toNat % 2 ^ 16) = c := by
    rw [Nat.mod_eq_of_lt c.isLt, BitVec.ofNat_toNat, BitVec.setWidth_eq]
  rw [State.withFetchWord, word, step_of_script (m := .issue c) (rest := s.host.script) rfl]
  rfl

/-- Settles O51: a step takes one move off the script, and Issue, in each of its three forms, is `moveIssue`. -/
theorem stepRunsTheIssuedCommand : Obligations.StepRunsTheIssuedCommand := by
  unfold Obligations.StepRunsTheIssuedCommand
  refine ⟨fun s m rest => step_of_script, fun s h => by rw [step, h, idle], fun s c i hd => ⟨fun rest h => ?_,
    fun rest h => ?_, ?_⟩, fun s c x rest hd h => ?_⟩
  · rw [step_of_script h]
    exact moveIssue_of_ok hd _
  · rw [step_of_script h, hostMove_writeReg_cmd, moveIssue_of_ok hd]
    rfl
  · rw [step_withFetchWord, moveIssue_of_ok hd]
  · have issue : step s = moveIssue c (s.setHost ⟨rest, s.host.got⟩) := by
      obtain h | h := h
      · exact step_of_script h
      · rw [step_of_script h, hostMove_writeReg_cmd]
    rw [issue, moveIssue_of_error hd, ifReady, State.setHost_fault]
    split <;> rfl

/-! ### Reads (R49, R24) -/

@[simp] theorem hostMove_read (x : ReadTarget) (s : State) :
    hostMove (.read x) s = .next (s.setHost ⟨s.host.script, readTarget x s :: s.host.got⟩) := rfl

theorem getD_toNat_eq_dite {n : Nat} (l : List (BitVec n)) (a : Nat) :
    (l.getD a 0#n).toNat = if h : a < l.length then l[a].toNat else 0 := by
  split
  next h => rw [getD_of_lt l _ h]
  next h => rw [getD_of_ge l _ (Nat.le_of_not_lt h), BitVec.toNat_ofNat, Nat.zero_mod]

/-- Settles O60: the returned value is `readTarget`, register by register and window by window. -/
theorem readsChangeNothing : Obligations.ReadsChangeNothing := by
  unfold Obligations.ReadsChangeNothing
  intro s x rest h
  refine ⟨readTarget x s, step_of_script h, ?_, ?_, ?_, ?_, ?_, ?_, ?_, ?_⟩
  · rintro rfl
    rfl
  · rintro n rfl
    refine congrArg ReadValue.value ?_
    match n with
    | 0 | 1 | 2 | 3 | 4 | 5 | 6 | 7 | 8 | 9 | 10 | 11 | 12 => rfl
    | n + 13 => rfl
  · rintro i rfl
    exact congrArg _ (readElem_st i s)
  · rintro i rfl
    exact congrArg _ (readElem_key i s)
  · rintro i rfl
    exact congrArg _ (readElem_rk i s)
  · rintro i rfl
    exact congrArg _ ((readElem_keyin i s).trans (getD_toNat_eq_dite _ i))
  · rintro i rfl
    exact congrArg _ ((readElem_ibuf i s).trans (getD_toNat_eq_dite _ i))
  · rintro i rfl
    exact congrArg _ ((readElem_obuf i s).trans (getD_toNat_eq_dite _ i))

/-! ### Moves in the fault state (R194) -/

/-- Settles O41: Issue follows the decode order, in which only RST comes before the fault state; the other moves do not
look at FAULT. -/
theorem faultStateIgnoresEveryCommandButRst : Obligations.FaultStateIgnoresEveryCommandButRst := by
  unfold Obligations.FaultStateIgnoresEveryCommandButRst
  obtain ⟨-, oneByte, -⟩ := writeDataStoresOneByte
  refine ⟨fun c s h hc => moveIssue_of_fault hc h, fun s _ => rfl, fun s _ =>
    ⟨fun bs hl => hostMove_loadIbuf hl s, fun tag es hl legal => hostMove_loadKey hl legal s, oneByte s,
      fun v hv => ⟨hostMove_writeReg_gfa hv s, hostMove_writeReg_gfb hv s⟩, fun x => ?_, rfl⟩⟩
  refine ⟨readTarget x s, hostMove_read x s, ?_, ?_, ?_⟩
  · rintro rfl
    rfl
  · rintro n rfl
    rfl
  · rintro w i rfl
    rfl

/-! ### Moves outside the spec (R24, logs 3, 8, 16, 17) -/

theorem hostMove_writeReg_ignored {n : Nat} (h0 : n ≠ 0) (h10 : n ≠ 10) (h11 : n ≠ 11) (v : Nat) (s : State) :
    hostMove (.writeReg n v) s = .next s := by
  match n with
  | 1 | 2 | 3 | 4 | 5 | 6 | 7 | 8 | 9 | 12 => rfl
  | n + 13 => rfl

theorem hostMove_loadKey_illegal {tag : BitVec 2} {es : List Elem} (hl : es.length < 2 ^ 64)
    (h : ¬ keyInputLegal tag es = true) (s : State) : hostMove (.loadKey tag es) s = .refused .malformedKeyInput :=
  (if_pos ((fitsKeyin_iff _).2 hl)).trans (if_neg h)

/-- Settles O59: each refusal is one check that fails, and a write to a read-only place is an arm that answers the same
state. -/
theorem movesOutsideTheSpecChangeNothing : Obligations.MovesOutsideTheSpecChangeNothing := by
  unfold Obligations.MovesOutsideTheSpecChangeNothing
  refine ⟨fun s n v h0 h10 h11 => hostMove_writeReg_ignored h0 h10 h11 v s, fun s w i v h => ?_, fun s es hl h => ?_,
    fun s es hl h => ?_, fun s bs hl => ?_, fun s tag es hl => ?_, fun s v h => if_neg (Nat.not_lt.2 h),
    fun s n v hn h => ?_⟩
  · obtain rfl | rfl | rfl := h <;> rfl
  · refine hostMove_loadKey_illegal hl (fun legal => ?_) s
    obtain ⟨u, hu, wide⟩ := h
    obtain ⟨bytes, -⟩ := (keyInputLegal_iff 0#2 es).1 legal
    exact absurd (bytes rfl u hu) (Nat.not_lt.2 wide)
  · refine hostMove_loadKey_illegal hl (fun legal => ?_) s
    obtain ⟨u, hu, outside⟩ := h
    obtain ⟨-, codePoints⟩ := (keyInputLegal_iff 1#2 es).1 legal
    obtain ⟨below, notSurrogate⟩ := codePoints rfl u hu
    exact outside.elim (Nat.not_lt.2 below) notSurrogate
  · exact if_neg (mt (fitsBuffer_iff _).1 (Nat.not_lt.2 hl))
  · exact if_neg (mt (fitsKeyin_iff _).1 (Nat.not_lt.2 hl))
  · obtain rfl | rfl := hn
    · exact if_neg (Nat.not_lt.2 h)
    · exact if_neg (Nat.not_lt.2 h)

end Sys2Proof.Machine
end
